-- ==== Sys2Proof/Word.lean ====
section
/-! DEFINITION. The widths of the block's values and the name of a display channel
(00_scope.md R12, 10_state.md R21 to R26, 30_encoding.md R80). -/

namespace Sys2Proof

/-- A byte that crosses a bus or stands in a table. -/
abbrev Byte := BitVec 8

/-- A digit register, a nibble of a byte, or the four row or column lines. -/
abbrev Nibble := BitVec 4

/-- A value of `pos` or `rem`: a natural below `2^POS_WIDTH`, the width a parameter of the build (00_scope.md R9,
92_eei_decisions.md D12; assumption 6). -/
abbrev Position := Nat

/-- The two display channels: 1 raw, 2 encrypted+Morse (43_display_channel_driver.md R160). -/
inductive Chan
  | ch1
  | ch2
deriving DecidableEq, Repr

end Sys2Proof
end

