-- ==== Sys2Proof/Config.lean ====
section
/-! DEFINITION. The elaboration-time parameters of 00_scope.md R9. Those the spec leaves OPEN without a default are
opaque constants, so that nothing can be proved of their value; those with a default have it in `Config.default`.
Every rule of the model reads the parameters from `State.cfg` (assumption 4), so a statement about every state is a
statement about every build. -/

namespace Sys2Proof.Config

/-- `T_DOT` of the default build: OPEN (00_scope.md R9, 92_eei_decisions.md D34). -/
opaque tDot : Nat
/-- `T_DASH` of the default build: OPEN. -/
opaque tDash : Nat
/-- `T_CHAR_GAP` of the default build: OPEN. -/
opaque tCharGap : Nat
/-- `T_ROW_SETTLE` of the default build: OPEN. -/
opaque tRowSettle : Nat
/-- `T_STEP` of the default build: OPEN. -/
opaque tStep : Nat
/-- `T_CLEAR_SETTLE` of the default build: OPEN. -/
opaque tClearSettle : Nat
/-- `T_WINDOW_SETTLE` of the default build: OPEN. -/
opaque tWindowSettle : Nat
/-- `BUS_ADDR[1]` of the default build: OPEN (92_eei_decisions.md D21). -/
opaque busAddr1 : Byte
/-- `BUS_ADDR[2]` of the default build: OPEN. -/
opaque busAddr2 : Byte

/-- One entry of the keypad table (20_memory.md R55). -/
structure KeySlot where
  /-- the 8-bit pattern, format KP -/
  pattern : Byte
  /-- `kind`: true for a digit slot, false for a reserved slot -/
  isDigit : Bool
  /-- the digit, ignored for a reserved slot -/
  digit : Nibble
deriving DecidableEq, Repr

/-- The parameters of a build (00_scope.md R9): fixed when the block is built, written by nothing. -/
structure Params where
  /-- `ITER_COUNT` -/
  iterCount : Nat
  /-- `WINDOW` -/
  window : Nat
  /-- `KEY`, character codes -/
  key : List Byte
  /-- `POS_WIDTH` -/
  posWidth : Nat
  /-- `T_DOT` -/
  tDot : Nat
  /-- `T_DASH` -/
  tDash : Nat
  /-- `T_CHAR_GAP` -/
  tCharGap : Nat
  /-- `T_ROW_SETTLE` -/
  tRowSettle : Nat
  /-- `T_STEP` -/
  tStep : Nat
  /-- `T_CLEAR_SETTLE` -/
  tClearSettle : Nat
  /-- `T_WINDOW_SETTLE` -/
  tWindowSettle : Nat
  /-- `ROW_ACTIVE` -/
  rowActive : Bool
  /-- `COL_IDLE` -/
  colIdle : Nibble
  /-- `KEYMAP` -/
  keymap : List KeySlot
  /-- `BUS_ADDR[1]` -/
  busAddr1 : Byte
  /-- `BUS_ADDR[2]` -/
  busAddr2 : Byte
  /-- `INIT_SEQ`, any bytes (assumption 34) -/
  initSeq : List (Byte × Byte)
  /-- `CMD_CLEAR` -/
  cmdClear : Byte
  /-- `CMD_HOME` -/
  cmdHome : Byte
  /-- `CMD_DISPLAY_OFF` -/
  cmdDisplayOff : Byte
  /-- `CURSOR_BASE` -/
  cursorBase : Byte
  /-- `BL` -/
  bl : Bool
  /-- `BUS_TIMEOUT`, `none` for no bound -/
  busTimeout : Option Nat
deriving DecidableEq, Repr

/-- The default `KEYMAP` of 30_encoding.md R84. -/
def defaultKeymap : List KeySlot :=
  [⟨0x7D, true, 0⟩, ⟨0xEE, true, 1⟩, ⟨0xED, true, 2⟩, ⟨0xEB, true, 3⟩,
   ⟨0xDE, true, 4⟩, ⟨0xDD, true, 5⟩, ⟨0xDB, true, 6⟩, ⟨0xBE, true, 7⟩,
   ⟨0xBD, true, 8⟩, ⟨0xBB, true, 9⟩, ⟨0xE7, false, 0⟩, ⟨0xD7, false, 0⟩,
   ⟨0xB7, false, 0⟩, ⟨0x77, false, 0⟩, ⟨0x7E, false, 0⟩, ⟨0x7B, false, 0⟩]

/-- The default `INIT_SEQ` of 30_encoding.md R95. -/
def defaultInitSeq : List (Byte × Byte) :=
  [(0x3C, 0x38), (0x3C, 0x38), (0x3C, 0x38), (0x2C, 0x28), (0x2C, 0x28), (0x8C, 0x88),
   (0x0C, 0x08), (0xCC, 0xC8), (0x0C, 0x08), (0x6C, 0x68), (0x0C, 0x08), (0x1C, 0x18)]

/-- The default build (00_scope.md R9): the spec's values and defaults, the opaque constants where it gives none
(assumption 5). `key` is "SECURE". -/
def default : Params where
  iterCount := 100
  window := 4
  key := [0x53, 0x45, 0x43, 0x55, 0x52, 0x45]
  posWidth := 32
  tDot := Config.tDot
  tDash := Config.tDash
  tCharGap := Config.tCharGap
  tRowSettle := Config.tRowSettle
  tStep := Config.tStep
  tClearSettle := Config.tClearSettle
  tWindowSettle := Config.tWindowSettle
  rowActive := false
  colIdle := 0xF
  keymap := defaultKeymap
  busAddr1 := Config.busAddr1
  busAddr2 := Config.busAddr2
  initSeq := defaultInitSeq
  cmdClear := 0x01
  cmdHome := 0x02
  cmdDisplayOff := 0x08
  cursorBase := 0x80
  bl := true
  busTimeout := none

end Sys2Proof.Config
end

