-- ==== Sys2Proof/Machine/Operands.lean ====
section
/-! DEFINITION. How operands and bytes are assembled (30_encoding.md R102): every place of the spec where a value is
made from parts, and the four constant tables read by index (20_memory.md R52 to R56). -/

namespace Sys2Proof.Machine

open Sys2Proof.Config

/-- The high nibble of a byte, `b[7:4]` (43_display_channel_driver.md R168). -/
def highNibble (b : Byte) : Nibble := b.extractLsb' 4 4

/-- The low nibble of a byte, `b[3:0]` (43_display_channel_driver.md R168). -/
def lowNibble (b : Byte) : Nibble := b.extractLsb' 0 4

/-- `frame(n, en, rs) = {n, BL, en, 0, rs}` (30_encoding.md R90, R91). -/
def frame (p : Params) (n : Nibble) (en rs : Bool) : Byte :=
  n ++ BitVec.ofBool p.bl ++ BitVec.ofBool en ++ 0#1 ++ BitVec.ofBool rs

/-- The keypad pattern `{kp_row, col}` (30_encoding.md R82). -/
def keyPattern (row col : Nibble) : Byte := row ++ col

/-- The command byte of set-cursor-position(`o`), `trunc_8(CURSOR_BASE + zext_8(o))` (30_encoding.md R93). -/
def cursorCommand (p : Params) (o : BitVec 2) : Byte := p.cursorBase + o.setWidth 8

/-- `digit_char(d) = trunc_8(0x30 + zext_8(d))` (30_encoding.md R99). -/
def digitChar (d : Nibble) : Byte := 0x30#8 + d.setWidth 8

/-- `mark_char(m)`: a dash is '-', a dot is '.' (30_encoding.md R99). -/
def markChar (dash : Bool) : Byte := if dash then 0x2D#8 else 0x2E#8

/-- The number of marks of a Morse word, `mw[7:5]` (30_encoding.md R97). -/
def markCount (w : Byte) : Nat := (w.extractLsb' 5 3).toNat

/-- Mark `i` of a Morse word, true for a dash (30_encoding.md R97). -/
def markAt (w : Byte) (i : Nat) : Bool := w.getLsbD i

/-- The level a row line has when it is not driven active. -/
def rowInactive (p : Params) : Bool := !p.rowActive

/-- `strobe(r)`: the active level at bit `r`, the inactive level elsewhere (40_keypad_scanner.md R123). -/
def strobe (p : Params) (r : BitVec 2) : Nibble :=
  let one : Nibble := 1#4 <<< r.toNat
  if p.rowActive then one else ~~~one

/-- `ALL_INACTIVE` (40_keypad_scanner.md R123, R133). -/
def allInactive (p : Params) : Nibble := if p.rowActive then 0#4 else 0xF#4

/-- Whether key (`r`, `k`) is in the pressed set: bit `4 r + k` (10_state.md R41). -/
def keyHeld (keys : BitVec 16) (r k : Nat) : Bool := keys.getLsbD (4 * r + k)

/-- Whether column `k` is connected by a held key to a row line driven active (10_state.md R41). -/
def columnActive (p : Params) (keys : BitVec 16) (row : Nibble) (k : Nat) : Bool :=
  (List.range 4).any fun r => keyHeld keys r k && (row.getLsbD r == p.rowActive)

/-- The level of column line `k`: `ROW_ACTIVE` when such a key is held, else the idle level (10_state.md R41). -/
def columnLevel (p : Params) (keys : BitVec 16) (row : Nibble) (k : Nat) : Bool :=
  if columnActive p keys row k then p.rowActive else p.colIdle.getLsbD k

/-- The four column lines for a set of held keys and the row lines as driven (10_state.md R41). -/
def columns (p : Params) (keys : BitVec 16) (row : Nibble) : Nibble :=
  BitVec.ofBool (columnLevel p keys row 3) ++ BitVec.ofBool (columnLevel p keys row 2) ++
    BitVec.ofBool (columnLevel p keys row 1) ++ BitVec.ofBool (columnLevel p keys row 0)

/-- The shift of a key letter, `letter - 'A'` (30_encoding.md R87, 41_cipher_engine.md R143). -/
def letterShift (letter : Byte) : BitVec 5 := (letter - 0x41#8).setWidth 5

/-- `KEYLEN` (00_scope.md R9). -/
def keyLen (p : Params) : Nat := p.key.length

/-- `KEYROM[i]` (20_memory.md R53). An index is always a remainder modulo `KEYLEN`. -/
def keyRom (p : Params) (i : Nat) : BitVec 5 := letterShift (p.key.getD i 0x41#8)

/-- The keystream index, `position mod KEYLEN` (41_cipher_engine.md R142). -/
def keystreamIndex (p : Params) (position : Position) : Nat := position % keyLen p

/-- The result of CE.ENCRYPT: `(digit + KEYROM[position mod KEYLEN]) mod 10`, the sum in 6 bits
(41_cipher_engine.md R141, R147, R148). -/
def encryptDigit (p : Params) (digit : Nibble) (position : Position) : Nibble :=
  let shift := keyRom p (keystreamIndex p position)
  let sum : BitVec 6 := digit.setWidth 6 + shift.setWidth 6
  (sum % 10#6).setWidth 4

/-- `MORSEROM[d]` (20_memory.md R54, 30_encoding.md R98): the ten digit words, the empty word for 10 to 15. -/
def morseRom (d : Nibble) : Byte :=
  match d.toNat with
  | 0 => 0xBF
  | 1 => 0xBE
  | 2 => 0xBC
  | 3 => 0xB8
  | 4 => 0xB0
  | 5 => 0xA0
  | 6 => 0xA1
  | 7 => 0xA3
  | 8 => 0xA7
  | 9 => 0xAF
  | _ => 0x00

/-- `KEYMAPROM[s]` (20_memory.md R55). A build has 16 slots, so every 4-bit index is one of them. -/
def keymapRom (p : Params) (s : Nat) : KeySlot := p.keymap.getD s ⟨0, false, 0⟩

/-- The last slot at or after index `i` whose pattern is `pat`: the search of 40_keypad_scanner.md R121 overwrites
`ks_slot` at each match. -/
def findSlot (pat : Byte) : List KeySlot → Nat → Option Nat
  | [], _ => none
  | k :: ks, i =>
    match findSlot pat ks (i + 1) with
    | some j => some j
    | none => if k.pattern = pat then some i else none

/-- `BUS_ADDR[c]` (00_scope.md R9). -/
def busAddr (p : Params) : Chan → Byte
  | .ch1 => p.busAddr1
  | .ch2 => p.busAddr2

end Sys2Proof.Machine
end

