-- ==== Sys2Proof/Syntax.lean ====
section
/-! DEFINITION. The block's operations and wire values, one constructor per row of spec/opcode_table.json
(30_encoding.md R101, R106), with the operands 30_encoding.md R101 gives each operation. The channel of a DCD
operation is in its identifier (R100) and so in the constructor; a display command or a frame names the channel it
is sent on as an operand (assumption 3). -/

namespace Sys2Proof

/-- The format a value is read in (30_encoding.md R80): an operation identifier, a display command or character, a
Morse word, a bus frame, a keypad pattern. -/
inductive Format
  | op
  | dc
  | mw
  | bf
  | kp
deriving DecidableEq, Repr

/-- One constructor per row of the opcode table. -/
inductive Instr
  /-- KS.READDIGIT: 40_keypad_scanner.md R121 -/
  | ksReaddigit
  /-- CE.ENCRYPT: 41_cipher_engine.md R141 -/
  | ceEncrypt (digit : Nibble) (position : Position)
  /-- ME.ENCODE: 42_morse_encoder.md R151 -/
  | meEncode (digit : Nibble)
  /-- DCD.INITIALIZE.CH1: 43_display_channel_driver.md R170 -/
  | dcdInitializeCh1
  /-- DCD.SENDBYTE.CH1: 43_display_channel_driver.md R164 -/
  | dcdSendbyteCh1 (b : Byte)
  /-- DCD.SENDNIBBLE.CH1: 43_display_channel_driver.md R166 -/
  | dcdSendnibbleCh1 (n : Nibble) (rs : Bool)
  /-- DCD.WRITECOMMAND.CH1: 43_display_channel_driver.md R169 -/
  | dcdWritecommandCh1 (b : Byte)
  /-- DCD.WRITECHAR.CH1: 43_display_channel_driver.md R176 -/
  | dcdWritecharCh1 (b : Byte)
  /-- DCD.CLEAR.CH1: 43_display_channel_driver.md R172 -/
  | dcdClearCh1
  /-- DCD.MOVECURSOR.CH1: 43_display_channel_driver.md R174 -/
  | dcdMovecursorCh1 (o : BitVec 2)
  /-- DCD.DISPLAYOFF.CH1: 43_display_channel_driver.md R177 -/
  | dcdDisplayoffCh1
  /-- LMP.PLAY: 44_led_morse_player.md R191 -/
  | lmpPlay (w : Byte)
  /-- SC.START: 45_session_controller.md R207 -/
  | scStart
  /-- SC.ITERATE: 45_session_controller.md R209 -/
  | scIterate
  /-- SC.TERMINATE: 45_session_controller.md R221 -/
  | scTerminate
  /-- SC.RUN: 45_session_controller.md R205 -/
  | scRun
  /-- DCD.INITIALIZE.CH2: 43_display_channel_driver.md R170 -/
  | dcdInitializeCh2
  /-- DCD.SENDBYTE.CH2: 43_display_channel_driver.md R164 -/
  | dcdSendbyteCh2 (b : Byte)
  /-- DCD.SENDNIBBLE.CH2: 43_display_channel_driver.md R166 -/
  | dcdSendnibbleCh2 (n : Nibble) (rs : Bool)
  /-- DCD.WRITECOMMAND.CH2: 43_display_channel_driver.md R169 -/
  | dcdWritecommandCh2 (b : Byte)
  /-- DCD.WRITECHAR.CH2: 43_display_channel_driver.md R176 -/
  | dcdWritecharCh2 (b : Byte)
  /-- DCD.CLEAR.CH2: 43_display_channel_driver.md R172 -/
  | dcdClearCh2
  /-- DCD.MOVECURSOR.CH2: 43_display_channel_driver.md R174 -/
  | dcdMovecursorCh2 (o : BitVec 2)
  /-- DCD.DISPLAYOFF.CH2: 43_display_channel_driver.md R177 -/
  | dcdDisplayoffCh2
  /-- DC.CLEAR: 30_encoding.md R92, 43_display_channel_driver.md R172 -/
  | dcClear (c : Chan)
  /-- DC.HOME: 30_encoding.md R92, 43_display_channel_driver.md R172 -/
  | dcHome (c : Chan)
  /-- DC.SETCURSOR: 30_encoding.md R93, 43_display_channel_driver.md R174 -/
  | dcSetcursor (c : Chan) (o : BitVec 2)
  /-- DC.DISPLAYOFF: 30_encoding.md R92, 43_display_channel_driver.md R177 -/
  | dcDisplayoff (c : Chan)
  /-- DC.WRITECHAR: 30_encoding.md R92, 43_display_channel_driver.md R176 -/
  | dcWritechar (c : Chan) (b : Byte)
  /-- MW.DIGIT0: 30_encoding.md R98, 42_morse_encoder.md R151 -/
  | mwDigit0
  /-- MW.DIGIT1: 30_encoding.md R98, 42_morse_encoder.md R151 -/
  | mwDigit1
  /-- MW.DIGIT2: 30_encoding.md R98, 42_morse_encoder.md R151 -/
  | mwDigit2
  /-- MW.DIGIT3: 30_encoding.md R98, 42_morse_encoder.md R151 -/
  | mwDigit3
  /-- MW.DIGIT4: 30_encoding.md R98, 42_morse_encoder.md R151 -/
  | mwDigit4
  /-- MW.DIGIT5: 30_encoding.md R98, 42_morse_encoder.md R151 -/
  | mwDigit5
  /-- MW.DIGIT6: 30_encoding.md R98, 42_morse_encoder.md R151 -/
  | mwDigit6
  /-- MW.DIGIT7: 30_encoding.md R98, 42_morse_encoder.md R151 -/
  | mwDigit7
  /-- MW.DIGIT8: 30_encoding.md R98, 42_morse_encoder.md R151 -/
  | mwDigit8
  /-- MW.DIGIT9: 30_encoding.md R98, 42_morse_encoder.md R151 -/
  | mwDigit9
  /-- MW.EMPTY: 30_encoding.md R98, 42_morse_encoder.md R152 -/
  | mwEmpty
  /-- BF.COMMAND: 30_encoding.md R91, 43_display_channel_driver.md R166 -/
  | bfCommand (c : Chan) (n : Nibble) (en : Bool)
  /-- BF.CHARACTER: 30_encoding.md R91, 43_display_channel_driver.md R166 -/
  | bfCharacter (c : Chan) (n : Nibble) (en : Bool)
  /-- KP.SLOT0.KEY_0: 30_encoding.md R84, 40_keypad_scanner.md R127 -/
  | kpSlot0Key0
  /-- KP.SLOT1.KEY_1: 30_encoding.md R84, 40_keypad_scanner.md R127 -/
  | kpSlot1Key1
  /-- KP.SLOT2.KEY_2: 30_encoding.md R84, 40_keypad_scanner.md R127 -/
  | kpSlot2Key2
  /-- KP.SLOT3.KEY_3: 30_encoding.md R84, 40_keypad_scanner.md R127 -/
  | kpSlot3Key3
  /-- KP.SLOT4.KEY_4: 30_encoding.md R84, 40_keypad_scanner.md R127 -/
  | kpSlot4Key4
  /-- KP.SLOT5.KEY_5: 30_encoding.md R84, 40_keypad_scanner.md R127 -/
  | kpSlot5Key5
  /-- KP.SLOT6.KEY_6: 30_encoding.md R84, 40_keypad_scanner.md R127 -/
  | kpSlot6Key6
  /-- KP.SLOT7.KEY_7: 30_encoding.md R84, 40_keypad_scanner.md R127 -/
  | kpSlot7Key7
  /-- KP.SLOT8.KEY_8: 30_encoding.md R84, 40_keypad_scanner.md R127 -/
  | kpSlot8Key8
  /-- KP.SLOT9.KEY_9: 30_encoding.md R84, 40_keypad_scanner.md R127 -/
  | kpSlot9Key9
  /-- KP.SLOT10.KEY_A: 30_encoding.md R84, 40_keypad_scanner.md R128 -/
  | kpSlot10KeyA
  /-- KP.SLOT11.KEY_B: 30_encoding.md R84, 40_keypad_scanner.md R128 -/
  | kpSlot11KeyB
  /-- KP.SLOT12.KEY_C: 30_encoding.md R84, 40_keypad_scanner.md R128 -/
  | kpSlot12KeyC
  /-- KP.SLOT13.KEY_D: 30_encoding.md R84, 40_keypad_scanner.md R128 -/
  | kpSlot13KeyD
  /-- KP.SLOT14.KEY_STAR: 30_encoding.md R84, 40_keypad_scanner.md R128 -/
  | kpSlot14KeyStar
  /-- KP.SLOT15.KEY_HASH: 30_encoding.md R84, 40_keypad_scanner.md R128 -/
  | kpSlot15KeyHash
deriving DecidableEq, Repr

end Sys2Proof
end

