-- ==== Sys2Proof/Decode.lean ====
section
/-! DEFINITION. The decoder and the encoder of the block's values (30_encoding.md). A value is read in the format of the
place it stands in (R80); the operands of an operation, and the channel of a display command or frame, are the bytes
after it (assumption 3). The display commands, the frame's constant bit and the keypad patterns are those of the
build's parameters (R90, R92, R84), so both functions take the parameters. -/

namespace Sys2Proof

open Sys2Proof.Config Sys2Proof.Machine

/-- Why a value is no operation or wire value of the block (30_encoding.md R103; assumptions 3, 33). Each is raised by
the decoder and is safe: nothing can be proved of what the hardware then does. -/
inductive DecodeError
  /-- OP: bit 7 is 1 -/
  | bit7Set
  /-- OP: `unit` 6 or 7 -/
  | reservedUnit
  /-- OP: an `op` value with no row in R101 -/
  | reservedOperation
  /-- OP: `ch` = 1 on a unit other than DCD -/
  | channelOnOtherUnit
  /-- the operand bytes are missing (assumption 3) -/
  | truncated
  /-- an operand byte has a bit set above its field (assumption 3) -/
  | operandOutOfRange
  /-- DC: bits above bit 8 -/
  | reservedBits
  /-- DC: a command byte other than the four of R92 -/
  | unlistedCommand
  /-- MW: `len` 6 or 7 -/
  | reservedMorseLength
  /-- MW: a word with `len` 0 to 5 that is no entry of the table of R98 (assumption 33) -/
  | unlistedMorseWord
  /-- BF: `rw` = 1, never produced -/
  | readFrame
  /-- BF: bit 3 is not the constant `BL` (assumption 33) -/
  | backlightBit
  /-- KP: a pattern of no slot (U18; of a single key in a build whose table lacks it, assumption 33) -/
  | unlistedPattern
deriving DecidableEq, Repr

/-- One operand byte. -/
def operandByte (args : List Byte) : Except DecodeError Byte :=
  match args with
  | b :: _ => .ok b
  | [] => .error .truncated

/-- A 4-bit operand in the low bits of its byte. -/
def operandNibble (args : List Byte) : Except DecodeError Nibble :=
  match args with
  | b :: _ => if highNibble b = 0 then .ok (lowNibble b) else .error .operandOutOfRange
  | [] => .error .truncated

/-- A 2-bit operand in the low bits of its byte. -/
def operandOffset (args : List Byte) : Except DecodeError (BitVec 2) :=
  match args with
  | b :: _ => if b.extractLsb' 2 6 = 0 then .ok (b.extractLsb' 0 2) else .error .operandOutOfRange
  | [] => .error .truncated

/-- The channel operand of a display command or a frame: byte 0 for channel 1, byte 1 for channel 2. -/
def operandChan (args : List Byte) : Except DecodeError Chan :=
  match args with
  | b :: _ => if b = 0 then .ok .ch1 else if b = 1 then .ok .ch2 else .error .operandOutOfRange
  | [] => .error .truncated

/-- The bytes of a position operand: the fewest that hold `POS_WIDTH` bits. -/
def posBytes (p : Params) : Nat := (p.posWidth + 7) / 8

/-- A natural as `n` bytes, the low byte first. -/
def leBytes : Nat → Nat → List Byte
  | 0, _ => []
  | n + 1, v => BitVec.ofNat 8 v :: leBytes n (v / 256)

/-- The natural a list of bytes stands for, the low byte first. -/
def leValue : List Byte → Nat
  | [] => 0
  | b :: bs => b.toNat + 256 * leValue bs

/-- The position operand, `POS_WIDTH` bits in whole bytes, the low byte first. -/
def operandPosition (p : Params) (args : List Byte) : Except DecodeError Position :=
  let bs := args.take (posBytes p)
  if bs.length < posBytes p then .error .truncated
  else if leValue bs < 2 ^ p.posWidth then .ok (leValue bs)
  else .error .operandOutOfRange

/-- The byte of a channel operand. -/
def chanByte : Chan → Byte
  | .ch1 => 0
  | .ch2 => 1

/-- The `unit` field of an identifier, bits 5:3 (30_encoding.md R100). -/
def opUnit (b : Byte) : Nat := (b.extractLsb' 3 3).toNat

/-- The `op` field of an identifier, bits 2:0 (30_encoding.md R100). -/
def opCode (b : Byte) : Nat := (b.extractLsb' 0 3).toNat

/-- The identifier (0, `ch`, `unit`, `op`) (30_encoding.md R100). -/
def opId (ch : Bool) (unit op : BitVec 3) : Byte := 0#1 ++ BitVec.ofBool ch ++ unit ++ op

/-- Unit 3, channel 1 (30_encoding.md R101). -/
def decodeDcd1 (op : Nat) (args : List Byte) : Except DecodeError Instr :=
  match op with
  | 0 => .ok .dcdInitializeCh1
  | 1 => (operandByte args).map .dcdSendbyteCh1
  | 2 =>
    match args with
    | b :: _ =>
      if b.extractLsb' 5 3 = 0 then .ok (.dcdSendnibbleCh1 (lowNibble b) (b.getLsbD 4)) else .error .operandOutOfRange
    | [] => .error .truncated
  | 3 => (operandByte args).map .dcdWritecommandCh1
  | 4 => (operandByte args).map .dcdWritecharCh1
  | 5 => .ok .dcdClearCh1
  | 6 => (operandOffset args).map .dcdMovecursorCh1
  | 7 => .ok .dcdDisplayoffCh1
  | _ => .error .reservedOperation

/-- Unit 3, channel 2 (30_encoding.md R101). -/
def decodeDcd2 (op : Nat) (args : List Byte) : Except DecodeError Instr :=
  match op with
  | 0 => .ok .dcdInitializeCh2
  | 1 => (operandByte args).map .dcdSendbyteCh2
  | 2 =>
    match args with
    | b :: _ =>
      if b.extractLsb' 5 3 = 0 then .ok (.dcdSendnibbleCh2 (lowNibble b) (b.getLsbD 4)) else .error .operandOutOfRange
    | [] => .error .truncated
  | 3 => (operandByte args).map .dcdWritecommandCh2
  | 4 => (operandByte args).map .dcdWritecharCh2
  | 5 => .ok .dcdClearCh2
  | 6 => (operandOffset args).map .dcdMovecursorCh2
  | 7 => .ok .dcdDisplayoffCh2
  | _ => .error .reservedOperation

/-- The units other than DCD (30_encoding.md R101, R103). -/
def decodeOther (p : Params) (unit op : Nat) (args : List Byte) : Except DecodeError Instr :=
  match unit, op with
  | 0, 0 => .ok .ksReaddigit
  | 1, 0 =>
    match operandNibble args, operandPosition p (args.drop 1) with
    | .ok d, .ok q => .ok (.ceEncrypt d q)
    | .error e, _ => .error e
    | _, .error e => .error e
  | 2, 0 => (operandNibble args).map .meEncode
  | 4, 0 => (operandByte args).map .lmpPlay
  | 5, 0 => .ok .scStart
  | 5, 1 => .ok .scIterate
  | 5, 2 => .ok .scTerminate
  | 5, 3 => .ok .scRun
  | 6, _ => .error .reservedUnit
  | 7, _ => .error .reservedUnit
  | _, _ => .error .reservedOperation

/-- Format OP: the identifier byte, then the operands (30_encoding.md R100, R101, R103). -/
def decodeOp (p : Params) (b : Byte) (args : List Byte) : Except DecodeError Instr :=
  if b.getLsbD 7 then .error .bit7Set
  else if opUnit b = 3 then
    if b.getLsbD 6 then decodeDcd2 (opCode b) args else decodeDcd1 (opCode b) args
  else if b.getLsbD 6 then .error .channelOnOtherUnit
  else decodeOther p (opUnit b) (opCode b) args

/-- The command byte of a display command (30_encoding.md R92, R93). -/
def decodeCommand (p : Params) (c : Chan) (b : Byte) : Except DecodeError Instr :=
  if b = p.cmdClear then .ok (.dcClear c)
  else if b = p.cmdHome then .ok (.dcHome c)
  else if b = p.cmdDisplayOff then .ok (.dcDisplayoff c)
  else if b = cursorCommand p 0 then .ok (.dcSetcursor c 0)
  else if b = cursorCommand p 1 then .ok (.dcSetcursor c 1)
  else if b = cursorCommand p 2 then .ok (.dcSetcursor c 2)
  else if b = cursorCommand p 3 then .ok (.dcSetcursor c 3)
  else .error .unlistedCommand

/-- Format DC, 9 bits: the byte, then `rs` in bit 0 of the next byte, then the channel (30_encoding.md R92). -/
def decodeDc (p : Params) (bs : List Byte) : Except DecodeError Instr :=
  match bs with
  | b :: r :: args =>
    match operandChan args with
    | .error e => .error e
    | .ok c =>
      if r = 0 then decodeCommand p c b
      else if r = 1 then .ok (.dcWritechar c b)
      else .error .reservedBits
  | _ => .error .truncated

/-- Format MW: a word of the Morse table (30_encoding.md R97, R98). `len` 6 and 7 are reserved (R103); that any other word
which is no entry of the table is rejected too, though LMP.PLAY takes it as an operand, is DESIGN CHOICE (assumption
33). -/
def decodeMw (b : Byte) : Except DecodeError Instr :=
  if b = 0xBF#8 then .ok .mwDigit0
  else if b = 0xBE#8 then .ok .mwDigit1
  else if b = 0xBC#8 then .ok .mwDigit2
  else if b = 0xB8#8 then .ok .mwDigit3
  else if b = 0xB0#8 then .ok .mwDigit4
  else if b = 0xA0#8 then .ok .mwDigit5
  else if b = 0xA1#8 then .ok .mwDigit6
  else if b = 0xA3#8 then .ok .mwDigit7
  else if b = 0xA7#8 then .ok .mwDigit8
  else if b = 0xAF#8 then .ok .mwDigit9
  else if b = 0x00#8 then .ok .mwEmpty
  else if 6 ≤ markCount b then .error .reservedMorseLength
  else .error .unlistedMorseWord

/-- Format BF: the frame, then the channel (30_encoding.md R90, R91). `rw` = 1 is reserved (R103); that a frame whose bit 3
is not `BL` is rejected is DESIGN CHOICE (assumption 33). -/
def decodeBf (p : Params) (bs : List Byte) : Except DecodeError Instr :=
  match bs with
  | b :: args =>
    match operandChan args with
    | .error e => .error e
    | .ok c =>
      if b.getLsbD 1 then .error .readFrame
      else if b.getLsbD 3 = p.bl then
        if b.getLsbD 0 then .ok (.bfCharacter c (highNibble b) (b.getLsbD 2))
        else .ok (.bfCommand c (highNibble b) (b.getLsbD 2))
      else .error .backlightBit
  | [] => .error .truncated

/-- The constructor of keypad slot `s` (30_encoding.md R84). -/
def kpInstr (s : Nat) : Except DecodeError Instr :=
  match s with
  | 0 => .ok .kpSlot0Key0
  | 1 => .ok .kpSlot1Key1
  | 2 => .ok .kpSlot2Key2
  | 3 => .ok .kpSlot3Key3
  | 4 => .ok .kpSlot4Key4
  | 5 => .ok .kpSlot5Key5
  | 6 => .ok .kpSlot6Key6
  | 7 => .ok .kpSlot7Key7
  | 8 => .ok .kpSlot8Key8
  | 9 => .ok .kpSlot9Key9
  | 10 => .ok .kpSlot10KeyA
  | 11 => .ok .kpSlot11KeyB
  | 12 => .ok .kpSlot12KeyC
  | 13 => .ok .kpSlot13KeyD
  | 14 => .ok .kpSlot14KeyStar
  | 15 => .ok .kpSlot15KeyHash
  | _ => .error .unlistedPattern

/-- Format KP: the pattern of a slot of the build's keypad table (30_encoding.md R82, R84). That "a pattern of no single
key" (U18) is one of no slot of the build's table is DESIGN CHOICE (assumption 33). -/
def decodeKp (p : Params) (b : Byte) : Except DecodeError Instr :=
  match findSlot b p.keymap 0 with
  | some s => kpInstr s
  | none => .error .unlistedPattern

/-- The decoder: total on any bytes, every rejection named. Bytes after the value are not read. -/
def decode (p : Params) (f : Format) (bs : List Byte) : Except DecodeError Instr :=
  match f, bs with
  | _, [] => .error .truncated
  | .op, b :: args => decodeOp p b args
  | .dc, bs => decodeDc p bs
  | .mw, b :: _ => decodeMw b
  | .bf, bs => decodeBf p bs
  | .kp, b :: _ => decodeKp p b

/-- The format a constructor's row has in the opcode table (30_encoding.md R106). -/
def Instr.format : Instr → Format
  | .ksReaddigit => .op
  | .ceEncrypt _ _ => .op
  | .meEncode _ => .op
  | .dcdInitializeCh1 => .op
  | .dcdSendbyteCh1 _ => .op
  | .dcdSendnibbleCh1 _ _ => .op
  | .dcdWritecommandCh1 _ => .op
  | .dcdWritecharCh1 _ => .op
  | .dcdClearCh1 => .op
  | .dcdMovecursorCh1 _ => .op
  | .dcdDisplayoffCh1 => .op
  | .lmpPlay _ => .op
  | .scStart => .op
  | .scIterate => .op
  | .scTerminate => .op
  | .scRun => .op
  | .dcdInitializeCh2 => .op
  | .dcdSendbyteCh2 _ => .op
  | .dcdSendnibbleCh2 _ _ => .op
  | .dcdWritecommandCh2 _ => .op
  | .dcdWritecharCh2 _ => .op
  | .dcdClearCh2 => .op
  | .dcdMovecursorCh2 _ => .op
  | .dcdDisplayoffCh2 => .op
  | .dcClear _ => .dc
  | .dcHome _ => .dc
  | .dcSetcursor _ _ => .dc
  | .dcDisplayoff _ => .dc
  | .dcWritechar _ _ => .dc
  | .mwDigit0 => .mw
  | .mwDigit1 => .mw
  | .mwDigit2 => .mw
  | .mwDigit3 => .mw
  | .mwDigit4 => .mw
  | .mwDigit5 => .mw
  | .mwDigit6 => .mw
  | .mwDigit7 => .mw
  | .mwDigit8 => .mw
  | .mwDigit9 => .mw
  | .mwEmpty => .mw
  | .bfCommand _ _ _ => .bf
  | .bfCharacter _ _ _ => .bf
  | .kpSlot0Key0 => .kp
  | .kpSlot1Key1 => .kp
  | .kpSlot2Key2 => .kp
  | .kpSlot3Key3 => .kp
  | .kpSlot4Key4 => .kp
  | .kpSlot5Key5 => .kp
  | .kpSlot6Key6 => .kp
  | .kpSlot7Key7 => .kp
  | .kpSlot8Key8 => .kp
  | .kpSlot9Key9 => .kp
  | .kpSlot10KeyA => .kp
  | .kpSlot11KeyB => .kp
  | .kpSlot12KeyC => .kp
  | .kpSlot13KeyD => .kp
  | .kpSlot14KeyStar => .kp
  | .kpSlot15KeyHash => .kp

/-- The bytes of an instruction: its value in its format, then its operands (30_encoding.md R84, R91 to R93, R98,
R101; operand bytes by assumption 3). -/
def encode (p : Params) : Instr → List Byte
  | .ksReaddigit => [opId false 0 0]
  | .ceEncrypt d q => opId false 1 0 :: d.setWidth 8 :: leBytes (posBytes p) q
  | .meEncode d => [opId false 2 0, d.setWidth 8]
  | .dcdInitializeCh1 => [opId false 3 0]
  | .dcdSendbyteCh1 b => [opId false 3 1, b]
  | .dcdSendnibbleCh1 n rs => [opId false 3 2, 0#3 ++ BitVec.ofBool rs ++ n]
  | .dcdWritecommandCh1 b => [opId false 3 3, b]
  | .dcdWritecharCh1 b => [opId false 3 4, b]
  | .dcdClearCh1 => [opId false 3 5]
  | .dcdMovecursorCh1 o => [opId false 3 6, o.setWidth 8]
  | .dcdDisplayoffCh1 => [opId false 3 7]
  | .lmpPlay w => [opId false 4 0, w]
  | .scStart => [opId false 5 0]
  | .scIterate => [opId false 5 1]
  | .scTerminate => [opId false 5 2]
  | .scRun => [opId false 5 3]
  | .dcdInitializeCh2 => [opId true 3 0]
  | .dcdSendbyteCh2 b => [opId true 3 1, b]
  | .dcdSendnibbleCh2 n rs => [opId true 3 2, 0#3 ++ BitVec.ofBool rs ++ n]
  | .dcdWritecommandCh2 b => [opId true 3 3, b]
  | .dcdWritecharCh2 b => [opId true 3 4, b]
  | .dcdClearCh2 => [opId true 3 5]
  | .dcdMovecursorCh2 o => [opId true 3 6, o.setWidth 8]
  | .dcdDisplayoffCh2 => [opId true 3 7]
  | .dcClear c => [p.cmdClear, 0, chanByte c]
  | .dcHome c => [p.cmdHome, 0, chanByte c]
  | .dcSetcursor c o => [cursorCommand p o, 0, chanByte c]
  | .dcDisplayoff c => [p.cmdDisplayOff, 0, chanByte c]
  | .dcWritechar c b => [b, 1, chanByte c]
  | .mwDigit0 => [0xBF]
  | .mwDigit1 => [0xBE]
  | .mwDigit2 => [0xBC]
  | .mwDigit3 => [0xB8]
  | .mwDigit4 => [0xB0]
  | .mwDigit5 => [0xA0]
  | .mwDigit6 => [0xA1]
  | .mwDigit7 => [0xA3]
  | .mwDigit8 => [0xA7]
  | .mwDigit9 => [0xAF]
  | .mwEmpty => [0x00]
  | .bfCommand c n en => [frame p n en false, chanByte c]
  | .bfCharacter c n en => [frame p n en true, chanByte c]
  | .kpSlot0Key0 => [(keymapRom p 0).pattern]
  | .kpSlot1Key1 => [(keymapRom p 1).pattern]
  | .kpSlot2Key2 => [(keymapRom p 2).pattern]
  | .kpSlot3Key3 => [(keymapRom p 3).pattern]
  | .kpSlot4Key4 => [(keymapRom p 4).pattern]
  | .kpSlot5Key5 => [(keymapRom p 5).pattern]
  | .kpSlot6Key6 => [(keymapRom p 6).pattern]
  | .kpSlot7Key7 => [(keymapRom p 7).pattern]
  | .kpSlot8Key8 => [(keymapRom p 8).pattern]
  | .kpSlot9Key9 => [(keymapRom p 9).pattern]
  | .kpSlot10KeyA => [(keymapRom p 10).pattern]
  | .kpSlot11KeyB => [(keymapRom p 11).pattern]
  | .kpSlot12KeyC => [(keymapRom p 12).pattern]
  | .kpSlot13KeyD => [(keymapRom p 13).pattern]
  | .kpSlot14KeyStar => [(keymapRom p 14).pattern]
  | .kpSlot15KeyHash => [(keymapRom p 15).pattern]

/-- The bytes of a table word, bit 0 the least significant bit of the first byte, bits at and above `nbits` zero,
padded to the longest value of the build. -/
def wordBytes (p : Params) (nbits w : Nat) : List Byte := leBytes (3 + posBytes p) (w % 2 ^ nbits)

/-- Whether the bytes decode in a format. -/
def decodesIn (p : Params) (f : Format) (bs : List Byte) : Bool :=
  match decode p f bs with
  | .ok _ => true
  | .error _ => false

/-- The format a bare table word is read in: a word of more than 8 bits is a display command or character; of the
8-bit formats the first that reads it, in the order OP, MW, KP, BF (assumption 2: a bare word does not say its
format, and some words are values of several). -/
def wordFormat (p : Params) (nbits : Nat) (bs : List Byte) : Format :=
  if 8 < nbits then .dc
  else if decodesIn p .op bs then .op
  else if decodesIn p .mw bs then .mw
  else if decodesIn p .kp bs then .kp
  else if decodesIn p .bf bs then .bf
  else .op

/-- The instruction the decoder reads from a table word, in the default build. -/
def decodeTableWord (nbits w : Nat) : Option Instr :=
  let bs := wordBytes Config.default nbits w
  match decode Config.default (wordFormat Config.default nbits bs) bs with
  | .ok i => some i
  | .error _ => none

end Sys2Proof
end

