-- ==== Sys2Proof/WellFormed.lean ====
section
/-! DEFINITION. When an operation's operands meet its contract, and when the parameters are a build the spec admits
(00_scope.md R11; 93_implementation_defined.md U14 to U17, U20). Each build check is a definition of its own. -/

namespace Sys2Proof

/-- The operands fit the widths of the build: only a position has a width that is a parameter, `POS_WIDTH`
(41_cipher_engine.md R141; assumption 6). -/
def Instr.operandsFit (p : Config.Params) : Instr → Bool
  | .ceEncrypt _ q => decide (q < 2 ^ p.posWidth)
  | .ksReaddigit | .meEncode _ | .lmpPlay _
  | .dcdInitializeCh1 | .dcdSendbyteCh1 _ | .dcdSendnibbleCh1 _ _ | .dcdWritecommandCh1 _
  | .dcdWritecharCh1 _ | .dcdClearCh1 | .dcdMovecursorCh1 _ | .dcdDisplayoffCh1
  | .scStart | .scIterate | .scTerminate | .scRun
  | .dcdInitializeCh2 | .dcdSendbyteCh2 _ | .dcdSendnibbleCh2 _ _ | .dcdWritecommandCh2 _
  | .dcdWritecharCh2 _ | .dcdClearCh2 | .dcdMovecursorCh2 _ | .dcdDisplayoffCh2
  | .dcClear _ | .dcHome _ | .dcSetcursor _ _ | .dcDisplayoff _ | .dcWritechar _ _
  | .mwDigit0 | .mwDigit1 | .mwDigit2 | .mwDigit3 | .mwDigit4 | .mwDigit5 | .mwDigit6 | .mwDigit7
  | .mwDigit8 | .mwDigit9 | .mwEmpty
  | .bfCommand _ _ _ | .bfCharacter _ _ _
  | .kpSlot0Key0 | .kpSlot1Key1 | .kpSlot2Key2 | .kpSlot3Key3 | .kpSlot4Key4 | .kpSlot5Key5
  | .kpSlot6Key6 | .kpSlot7Key7 | .kpSlot8Key8 | .kpSlot9Key9 | .kpSlot10KeyA | .kpSlot11KeyB
  | .kpSlot12KeyC | .kpSlot13KeyD | .kpSlot14KeyStar | .kpSlot15KeyHash => true

/-- The operands fit and meet the contract of the operation. Only LMP.PLAY has a value its operand can carry and its
contract excludes: a word with `len` 6 or 7 (44_led_morse_player.md R196). A digit operand 10 to 15 is defined
(41_cipher_engine.md R147, 42_morse_encoder.md R152) and a cursor offset cannot leave 0 to 3
(43_display_channel_driver.md R175). -/
def Instr.wf (p : Config.Params) : Instr → Bool
  | .lmpPlay w => decide (Machine.markCount w ≤ 5)
  | .ceEncrypt d q => (Instr.ceEncrypt d q).operandsFit p
  | .ksReaddigit | .meEncode _
  | .dcdInitializeCh1 | .dcdSendbyteCh1 _ | .dcdSendnibbleCh1 _ _ | .dcdWritecommandCh1 _
  | .dcdWritecharCh1 _ | .dcdClearCh1 | .dcdMovecursorCh1 _ | .dcdDisplayoffCh1
  | .scStart | .scIterate | .scTerminate | .scRun
  | .dcdInitializeCh2 | .dcdSendbyteCh2 _ | .dcdSendnibbleCh2 _ _ | .dcdWritecommandCh2 _
  | .dcdWritecharCh2 _ | .dcdClearCh2 | .dcdMovecursorCh2 _ | .dcdDisplayoffCh2
  | .dcClear _ | .dcHome _ | .dcSetcursor _ _ | .dcDisplayoff _ | .dcWritechar _ _
  | .mwDigit0 | .mwDigit1 | .mwDigit2 | .mwDigit3 | .mwDigit4 | .mwDigit5 | .mwDigit6 | .mwDigit7
  | .mwDigit8 | .mwDigit9 | .mwEmpty
  | .bfCommand _ _ _ | .bfCharacter _ _ _
  | .kpSlot0Key0 | .kpSlot1Key1 | .kpSlot2Key2 | .kpSlot3Key3 | .kpSlot4Key4 | .kpSlot5Key5
  | .kpSlot6Key6 | .kpSlot7Key7 | .kpSlot8Key8 | .kpSlot9Key9 | .kpSlot10KeyA | .kpSlot11KeyB
  | .kpSlot12KeyC | .kpSlot13KeyD | .kpSlot14KeyStar | .kpSlot15KeyHash => true

namespace Config.Params

/-- The key is not empty and holds only letters 'A' to 'Z' (00_scope.md R11, 30_encoding.md R87; U17). -/
def keyOk (p : Params) : Bool :=
  !p.key.isEmpty && p.key.all fun c => decide (0x41 ≤ c.toNat) && decide (c.toNat ≤ 0x5A)

/-- `2^POS_WIDTH > ITER_COUNT` (00_scope.md R11; U14). -/
def iterCountOk (p : Params) : Bool := decide (p.iterCount < 2 ^ p.posWidth)

/-- `WINDOW = 4` (00_scope.md R11; U20). -/
def windowOk (p : Params) : Bool := p.window == 4

/-- The keypad table has 16 entries (20_memory.md R55). -/
def keymapSizeOk (p : Params) : Bool := p.keymap.length == 16

/-- The 16 patterns are pairwise different (20_memory.md R55; U16). -/
def keymapDistinctOk (p : Params) : Bool := decide (p.keymap.map (·.pattern)).Nodup

/-- Slot 0 is the digit slot of the digit 0 (20_memory.md R55; U16). -/
def keymapSlot0Ok (p : Params) : Bool :=
  (Machine.keymapRom p 0).isDigit && (Machine.keymapRom p 0).digit == 0

/-- Each digit 0 to 9 has exactly one digit slot and no digit slot holds another value (20_memory.md R55; U16). -/
def keymapDigitsOk (p : Params) : Bool :=
  (List.range 10).all (fun d => (p.keymap.filter fun k => k.isDigit && k.digit.toNat == d).length == 1) &&
    p.keymap.all fun k => !k.isDigit || decide (k.digit.toNat ≤ 9)

/-- The initialisation sequence has 12 pairs (20_memory.md R56). DESIGN CHOICE: its bytes are any bytes, also such as are
no frames of format BF (30_encoding.md R94; assumption 34). -/
def initSeqOk (p : Params) : Bool := p.initSeq.length == 12

/-- `CURSOR_BASE ≤ 0xFC` (30_encoding.md R93; U15). -/
def cursorBaseOk (p : Params) : Bool := decide (p.cursorBase.toNat ≤ 0xFC)

/-- The three single commands and the four cursor commands are pairwise different (30_encoding.md R92). -/
def commandsOk (p : Params) : Bool :=
  decide [p.cmdClear, p.cmdHome, p.cmdDisplayOff, Machine.cursorCommand p 0, Machine.cursorCommand p 1,
    Machine.cursorCommand p 2, Machine.cursorCommand p 3].Nodup

/-- A build the spec admits; any other is refused (93_implementation_defined.md part 1). -/
def wf (p : Params) : Bool :=
  p.keyOk && p.iterCountOk && p.windowOk && p.keymapSizeOk && p.keymapDistinctOk && p.keymapSlot0Ok &&
    p.keymapDigitsOk && p.initSeqOk && p.cursorBaseOk && p.commandsOk

end Config.Params

end Sys2Proof
end

