-- ==== Sys2Proof/Machine/State.lean ====
section
/-! DEFINITION. The block's state as plain data (10_state.md), the environment's answers and the observation records
the spec speaks of, the reset values (10_state.md R45), and why a step can stop. -/

namespace Sys2Proof.Machine

open Sys2Proof.Config

/-- `sc_phase` (10_state.md R29), numbers 0 to 18 in this order. -/
inductive ScPhase
  | reset | init1 | init2 | check | wclr1 | wclr2 | wsettle | read | cipher | ch1pos | ch1wr | ch2clr | ch2dig
  | ch2mrk | play | adv | off1 | off2 | halt
deriving DecidableEq, Repr

/-- `ks_phase` (10_state.md R29), numbers 0 to 5 in this order. -/
inductive KsPhase
  | idle | drive | settle | sample | lookup | done
deriving DecidableEq, Repr

/-- `d_phase[c]` (10_state.md R29), numbers 0 to 6 in this order. -/
inductive DPhase
  | idle | start | addr | seq | xfer | settle | done
deriving DecidableEq, Repr

/-- `lmp_state` (10_state.md R29, 44_led_morse_player.md R193), numbers 0 to 2 in this order. -/
inductive LmpState
  | idle | markOn | gapOff
deriving DecidableEq, Repr

/-- `bus_req[c]` (10_state.md R38): none 0, START 1, ADDR 2, DATA 3. -/
inductive BusReq
  | none | start | addr | data
deriving DecidableEq, Repr

/-- The events of 00_scope.md R17. -/
inductive Event
  | row (v : Nibble)
  | sample (c : Nibble)
  | delay (t : Nat)
  | busStart (ch : Chan)
  | busAddr (ch : Chan) (a : Byte)
  | busData (ch : Chan) (b : Byte)
  | busReady (ch : Chan)
  | led (b : Bool)
  | noMatch (p : Byte)
  | busTimeout (ch : Chan)
  | done
deriving DecidableEq, Repr

/-- What an operation with a result handed to its caller (30_encoding.md R101; assumption 14). -/
inductive Ret
  | none
  | digit (d : Nibble)
  | word (w : Byte)
deriving DecidableEq, Repr

/-- The addressed bytes of the observation model: display positions and their characters (10_state.md R44), in one
canonical form: positions strictly rising. An unlisted position is unset. -/
abbrev Memory := List Host.Cell

/-- What display `c` shows (10_state.md R44): an observation of the environment, read by no rule. -/
structure View where
  /-- `text`, a finite map from position to character byte -/
  text : Memory
  /-- `vcur` -/
  vcur : Nat
  /-- `on` -/
  on : Bool
deriving DecidableEq, Repr

/-- The answers of a channel's ready flag (10_state.md R42; assumption 8): how long each of the next ready-waits
lasts until the flag reads 1, and how long every wait after those lasts, `none` when the flag never sets again. -/
structure Ready where
  next : List Nat
  rest : Option Nat
deriving DecidableEq, Repr

/-- The registers of one display channel driver (10_state.md R28, R29, R34, R38). -/
structure Driver where
  /-- `d_byte[c]` -/
  byte : Byte
  /-- `d_rs[c]` -/
  rs : Bool
  /-- `d_step[c]` -/
  step : BitVec 2
  /-- `d_seq[c]` -/
  seq : BitVec 4
  /-- `d_init[c]` -/
  inited : Bool
  /-- `d_phase[c]` -/
  phase : DPhase
  /-- `cur[c]` -/
  cur : BitVec 3
  /-- `bus_req[c]`, held until the request's ready-wait ends -/
  busReq : BusReq
  /-- `bus_byte[c]` -/
  busByte : Byte
deriving DecidableEq, Repr

/-- The environment's side of one channel (10_state.md R42 to R44). -/
structure Line where
  /-- the ready flag's answers -/
  ready : Ready
  /-- the bus has been started (10_state.md R43) -/
  started : Bool
  /-- the display view -/
  view : View
deriving DecidableEq, Repr

/-- One operation or wire value presented to be performed alone (assumption 1). -/
structure CallSlot where
  format : Format
  bytes : List Byte
deriving DecidableEq, Repr

/-- The block's own state (10_state.md R20 to R39): its registers, phases, flags and ports, and the ghost window. No
parameter and no answer of the environment stands here (R46). -/
structure Block where
  /-- `dig` (R21) -/
  dig : Nibble
  /-- `enc` (R22) -/
  enc : Nibble
  /-- `mw` (R23) -/
  mw : Byte
  /-- `cnt` (R24) -/
  cnt : BitVec 3
  /-- `pos` (R25), `POS_WIDTH` bits -/
  pos : Position
  /-- `rem` (R26), `POS_WIDTH` bits -/
  rem : Position
  /-- `ks_row` (R27) -/
  ksRow : BitVec 2
  /-- `ks_pat` (R27) -/
  ksPat : Byte
  /-- `ks_slot` (R27) -/
  ksSlot : BitVec 4
  /-- DCD instance 1 (R28) -/
  drv1 : Driver
  /-- DCD instance 2 (R28) -/
  drv2 : Driver
  /-- `sc_phase` (R29) -/
  scPhase : ScPhase
  /-- `ks_phase` (R29) -/
  ksPhase : KsPhase
  /-- `lmp_state` (R29) -/
  lmpState : LmpState
  /-- `lmp_idx` (R29) -/
  lmpIdx : BitVec 3
  /-- `sc_mi` (R29) -/
  scMi : BitVec 3
  /-- `st_nomatch` (R31) -/
  stNomatch : Bool
  /-- `st_bus_timeout` (R31) -/
  stBusTimeout : Bool
  /-- `st_done` (R31) -/
  stDone : Bool
  /-- `led` (R32) -/
  led : Bool
  /-- `kp_row` (R35) -/
  kpRow : Nibble
  /-- `dly_req` (R38), 1 only inside a sleep -/
  dlyReq : Bool
  /-- `dly_len` (R38), the length of the last sleep -/
  dlyLen : Nat
  /-- `window`, the ghost sequence of R39 -/
  window : List Nibble
deriving DecidableEq, Repr

/-- The environment the rules speak of (10_state.md 1.8: "A model holds it as an oracle"), and the reset input. No part
of it is state of the block. -/
structure Environment where
  /-- the values the column lines show at the next samples (R41, R125; assumption 7) -/
  cols : List Nibble
  /-- the keys held at every sample after those, bit `4 r + k` for key (`r`, `k`) (R41; assumption 7) -/
  keys : BitVec 16
  /-- channel 1's environment -/
  line1 : Line
  /-- channel 2's environment -/
  line2 : Line
  /-- `rst`, input level (R38, 70_reset_and_hazards.md R265); no step releases it (assumption 32) -/
  rst : Bool
  /-- `rst` will be asserted right after the next event but this many, in the middle of whatever the block is then
  doing; `none`: it will not (70_reset_and_hazards.md R267; assumption 26) -/
  rstIn : Option Nat
deriving DecidableEq, Repr

/-- The machine's state: the block, its environment, and the model's own fields. -/
structure State extends Block, Environment where
  /-- the build's parameters, written by no step (00_scope.md R9; assumption 4) -/
  cfg : Params
  /-- the trace, oldest event first (00_scope.md R17) -/
  events : List Event
  /-- model time in TICKs (00_scope.md R17) -/
  time : Nat
  /-- the last result handed to a caller (assumption 14) -/
  ret : Ret
  /-- the operation presented to be performed alone (assumption 1) -/
  slot : Option CallSlot
deriving DecidableEq, Repr

/-- The three fault conditions of 60_exceptions.md R235. `State.raise` in Machine/Ops.lean records each as its rule
says; no step answers with one, because none transfers control (R245; assumption 28). -/
inductive Fault
  /-- code 1, raised by KS.READDIGIT, absorbed (R236); safe -/
  | noMatch (p : Byte)
  /-- code 2, raised by a ready-wait, halts the block (R238); safe -/
  | busTimeout (c : Chan)
  /-- code 3, raised by nothing (R237); safe -/
  | cursorOutOfRange
deriving DecidableEq, Repr

/-- Why the model gives a step no meaning. All but the first are what 93_implementation_defined.md says a model
refuses, and are safe: nothing can be proved of what the hardware then does. -/
inductive Refusal
  /-- the instruction has no meaning yet; raised by exec's arms only; safe -/
  | notModelled (mnemonic : String)
  /-- the presented value is no operation or wire value: reserved (30_encoding.md R103; U18), or a value of its format
  that no row stands for (assumptions 3, 33); raised by the step; safe -/
  | badEncoding (e : DecodeError)
  /-- the build's parameters break a constraint (U14 to U17, U20); raised by the step; safe -/
  | buildRefused
  /-- a display operation on a channel with `d_init` = 0 (43_display_channel_driver.md R163; U9); safe -/
  | notInitialised (c : Chan)
  /-- a second DCD.INITIALIZE on a channel (R170; U10); safe -/
  | alreadyInitialised (c : Chan)
  /-- DCD.INITIALIZE on a bus that an earlier run has started (70_reset_and_hazards.md R267; U11); safe -/
  | busAlreadyStarted (c : Chan)
  /-- LMP.PLAY of a word with `len` 6 or 7 (44_led_morse_player.md R196; U7); safe -/
  | morseLength
deriving DecidableEq, Repr


/-- A driver's registers at reset (10_state.md R45; `busByte` by assumption 24). -/
def Driver.reset : Driver where
  byte := 0
  rs := false
  step := 0
  seq := 0
  inited := false
  phase := .idle
  cur := 0
  busReq := .none
  busByte := 0

/-- A channel's environment before a run: the bus not started (70_reset_and_hazards.md R268), every ready-wait
answered at once (assumption 8), nothing on the display (assumption 13). -/
def Line.initial : Line where
  ready := ⟨[], some 0⟩
  started := false
  view := ⟨[], 0, false⟩

/-- The block of a build after reset (10_state.md R45; `dlyLen` by assumption 24). -/
def Block.reset (p : Params) : Block where
  dig := 0
  enc := 0
  mw := 0
  cnt := 0
  pos := 0
  rem := p.iterCount
  ksRow := 0
  ksPat := 0
  ksSlot := 0
  drv1 := .reset
  drv2 := .reset
  scPhase := .reset
  ksPhase := .idle
  lmpState := .idle
  lmpIdx := 0
  scMi := 0
  stNomatch := false
  stBusTimeout := false
  stDone := false
  led := false
  kpRow := if p.rowActive then 0x0 else 0xF
  dlyReq := false
  dlyLen := 0
  window := []

/-- The environment in its initial condition: no sample listed, no key held, both channels fresh, `rst` released and
not asserted again (70_reset_and_hazards.md R266, R268; assumptions 7, 8, 13, 26). -/
def Environment.initial : Environment where
  cols := []
  keys := 0
  line1 := .initial
  line2 := .initial
  rst := false
  rstIn := none

/-- The block of a build after reset, in an environment; a trace begins (10_state.md R45, 70_reset_and_hazards.md
R267). -/
def State.initial (p : Params) (env : Environment) : State where
  toBlock := .reset p
  toEnvironment := env
  cfg := p
  events := []
  time := 0
  ret := .none
  slot := none

/-- The machine right after reset: the default build, `rst` released, the environment in its initial condition
(10_state.md R45, 70_reset_and_hazards.md R265, R266, R268). -/
def State.reset : State := State.initial Config.default .initial

end Sys2Proof.Machine
end

