-- ==== Sys2Proof/Machine/Flags.lean ====
section
/-! DEFINITION. The three sticky status flags (10_state.md R31). No operation reads one and only reset clears one. -/

namespace Sys2Proof.Machine

/-- `st_nomatch <- 1` (40_keypad_scanner.md R128). -/
def State.setNomatch (s : State) : State := { s with stNomatch := true }

/-- `st_bus_timeout <- 1` (60_exceptions.md R238). -/
def State.setBusTimeout (s : State) : State := { s with stBusTimeout := true }

/-- `st_done <- 1` (45_session_controller.md R221). -/
def State.setDone (s : State) : State := { s with stDone := true }

end Sys2Proof.Machine
end

