-- ==== Sys2Proof/Machine/Ops.lean ====
section
/-! DEFINITION. The shared operations: registers by channel, the access and time primitives of 00_scope.md R15 and
R16, the ready-wait, recording a fault condition, the display positions, and sequencing of operations that may stop,
by `rst` too. -/

namespace Sys2Proof.Machine

open Sys2Proof.Config

/-! ## Registers by channel -/

/-- The registers of DCD instance `c` (43_display_channel_driver.md R161). -/
def State.drv (s : State) : Chan → Driver
  | .ch1 => s.drv1
  | .ch2 => s.drv2

/-- The environment of channel `c`. -/
def State.line (s : State) : Chan → Line
  | .ch1 => s.line1
  | .ch2 => s.line2

/-- Write registers of DCD instance `c`. -/
def State.modDrv (s : State) (c : Chan) (f : Driver → Driver) : State :=
  match c with
  | .ch1 => { s with drv1 := f s.drv1 }
  | .ch2 => { s with drv2 := f s.drv2 }

/-- Change the environment of channel `c`. -/
def State.modLine (s : State) (c : Chan) (f : Line → Line) : State :=
  match c with
  | .ch1 => { s with line1 := f s.line1 }
  | .ch2 => { s with line2 := f s.line2 }

/-! ## Display positions (10_state.md R44) -/

/-- The byte at an address; an unlisted address is unset. -/
def Memory.read : Memory → Nat → Option Byte
  | [], _ => none
  | (k, v) :: m, a => if a = k then some v else Memory.read m a

/-- Set the byte at an address, keeping the addresses strictly rising. -/
def Memory.write : Memory → Nat → Byte → Memory
  | [], a, b => [(a, b)]
  | (k, v) :: m, a, b =>
    if a < k then (a, b) :: (k, v) :: m
    else if a = k then (a, b) :: m
    else (k, v) :: Memory.write m a b

/-- Every address of the list is above `lo`, and they rise strictly. -/
def Memory.risesFrom : Option Nat → Memory → Bool
  | _, [] => true
  | none, (k, _) :: m => Memory.risesFrom (some k) m
  | some lo, (k, _) :: m => decide (lo < k) && Memory.risesFrom (some k) m

/-- The canonical form: addresses strictly rising. (An unlisted address is unset, so no entry equals what an unlisted
address reads as.) -/
def Memory.wf (m : Memory) : Bool := Memory.risesFrom none m

/-- The bytes from address `a` on up to the first unset one, at most `n` of them. -/
def Memory.runFrom (m : Memory) (a : Nat) : Nat → List Byte
  | 0 => []
  | n + 1 =>
    match m.read a with
    | some b => b :: Memory.runFrom m (a + 1) n
    | none => []

/-- What a display that is on shows: the characters from position 0 to the first unset one; `none` for a display
that is off (10_state.md R44). -/
def View.shows (v : View) : Option (List Byte) :=
  if v.on then some (v.text.runFrom 0 v.text.length) else none

/-- The offset a set-cursor-position command byte names (30_encoding.md R93). -/
def cursorOffset (p : Params) (b : Byte) : Option (BitVec 2) :=
  if b = cursorCommand p 0 then some 0
  else if b = cursorCommand p 1 then some 1
  else if b = cursorCommand p 2 then some 2
  else if b = cursorCommand p 3 then some 3
  else none

/-- A whole command has been transferred: the cases of 10_state.md R44; any other command leaves the view. -/
def View.command (p : Params) (b : Byte) (v : View) : View :=
  if b = p.cmdClear then { v with text := [], vcur := 0 }
  else if b = p.cmdHome then { v with vcur := 0 }
  else if b = p.cmdDisplayOff then { v with on := false }
  else
    match cursorOffset p b with
    | some o => { v with vcur := o.toNat }
    | none => v

/-- A whole character has been transferred (10_state.md R44). -/
def View.character (b : Byte) (v : View) : View :=
  { v with text := v.text.write v.vcur b, vcur := v.vcur + 1 }

/-- A whole byte has been transferred with its register select (10_state.md R44, 43_display_channel_driver.md R168). -/
def View.receive (p : Params) (rs : Bool) (b : Byte) (v : View) : View :=
  if rs then v.character b else v.command p b

/-! ## Operations that may stop -/

/-- How an operation ends: it returns to its caller, or it makes no further progress (a ready flag that never sets,
43_display_channel_driver.md R178; BusTimeout, 60_exceptions.md R238; a scan that still waits for a key,
40_keypad_scanner.md R130; `rst` asserted in its middle, 70_reset_and_hazards.md R267). The state it stops in holds
all that it did. -/
inductive Run
  | done (s : State)
  | stop (s : State)
deriving DecidableEq, Repr

/-- The next statement, performed when the one before has returned (00_scope.md R16, 20_memory.md R66). -/
def Run.andThen (r : Run) (f : State → Run) : Run :=
  match r with
  | .done s => f s
  | .stop s => .stop s

/-- The state an operation ends in, as exec's answer: both ends are next states. -/
def Run.result (r : Run) : Host.Outcome State Fault Refusal :=
  match r with
  | .done s => .next s
  | .stop s => .next s

/-- `rst` is asserted: at once every register has its reset value, no result stands, nothing is in progress; the trace
of the run ends as it stands, and the environment keeps what it has (70_reset_and_hazards.md R265, R267; assumptions
25, 26). -/
def State.assertReset (s : State) : State :=
  { State.initial s.cfg { s.toEnvironment with rst := true, rstIn := none } with
    events := s.events, time := s.time, slot := s.slot }

/-- Right after an event `rst` may be asserted, in the middle of whatever the block is doing: the operation is abandoned
(70_reset_and_hazards.md R267, 60_exceptions.md R244; assumption 26). -/
def resetPoint (s : State) : Run :=
  match s.rstIn with
  | none => .done s
  | some 0 => .stop s.assertReset
  | some (n + 1) => .done { s with rstIn := some n }

/-! ## Events, time, ports -/

/-- Emit one event (00_scope.md R17). -/
def State.emit (s : State) (e : Event) : State := { s with events := s.events ++ [e] }

/-- A sleep begins: `Delay(T)`, and the delay service is asked (00_scope.md R16, 10_state.md R38). -/
def State.beginSleep (s : State) (t : Nat) : State := { s.emit (.delay t) with dlyReq := true, dlyLen := t }

/-- The delay service has answered: exactly `T` has passed (00_scope.md R16, 70_reset_and_hazards.md R282). -/
def State.endSleep (s : State) (t : Nat) : State := { s with time := s.time + t, dlyReq := false }

/-- `sleep(T)` (00_scope.md R16). -/
def State.sleep (s : State) (t : Nat) : Run := (resetPoint (s.beginSleep t)).andThen fun u => .done (u.endSleep t)

/-- The row lines take the value `v` (10_state.md R35). -/
def State.driveRows (s : State) (v : Nibble) : State := { s.emit (.row v) with kpRow := v }

/-- `MemWrite(KPROW, -, 4, v)` (20_memory.md R59). -/
def writeRows (v : Nibble) (s : State) : Run := resetPoint (s.driveRows v)

/-- The LED line takes the value `b` (10_state.md R32). -/
def State.driveLed (s : State) (b : Bool) : State := { s.emit (.led b) with led := b }

/-- `MemWrite(LED, -, 1, b)` (20_memory.md R60). -/
def writeLed (b : Bool) (s : State) : Run := resetPoint (s.driveLed b)

/-- The start request stands on the bus, which is now started (10_state.md R38, R43). -/
def State.requestStart (s : State) (c : Chan) : State :=
  ((s.modDrv c fun d => { d with busReq := .start }).modLine c fun l => { l with started := true }).emit (.busStart c)

/-- `MemWrite(BUS[c], START, 0, -)` (20_memory.md R57). -/
def writeStart (c : Chan) (s : State) : Run := resetPoint (s.requestStart c)

/-- The address request stands on the bus (10_state.md R38). -/
def State.requestAddr (s : State) (c : Chan) (a : Byte) : State :=
  (s.modDrv c fun d => { d with busReq := .addr, busByte := a }).emit (.busAddr c a)

/-- `MemWrite(BUS[c], ADDR, 8, a)` (20_memory.md R57). -/
def writeAddr (c : Chan) (a : Byte) (s : State) : Run := resetPoint (s.requestAddr c a)

/-- The data request stands on the bus (10_state.md R38). -/
def State.requestData (s : State) (c : Chan) (b : Byte) : State :=
  (s.modDrv c fun d => { d with busReq := .data, busByte := b }).emit (.busData c b)

/-- `MemWrite(BUS[c], DATA, 8, b)` (20_memory.md R57). -/
def writeData (c : Chan) (b : Byte) (s : State) : Run := resetPoint (s.requestData c b)

/-! ## Fault conditions -/

/-- The reference number of a fault condition (60_exceptions.md R235). -/
def Fault.code : Fault → Nat
  | .noMatch _ => 1
  | .busTimeout _ => 2
  | .cursorOutOfRange => 3

/-- The controller enters `SC_HALT` (45_session_controller.md R222). -/
def State.halt (s : State) : State := { s with scPhase := .halt }

/-- `raise`: the one operation that records a fault condition (60_exceptions.md R235). NoMatch sets its flag and
emits its event, and control goes on (R236); BusTimeout sets its flag, emits its event and halts the controller
(R238); CursorOutOfRange cannot arise and records nothing (R237). No register is saved and there is no handler, so
there is nothing to return from (R245, R246). -/
def State.raise (s : State) : Fault → Run
  | .noMatch p => resetPoint (s.setNomatch.emit (.noMatch p))
  | .busTimeout c => (resetPoint (s.setBusTimeout.emit (.busTimeout c))).andThen fun t => .stop t.halt
  | .cursorOutOfRange => .done s

/-! ## The ready-wait (43_display_channel_driver.md R165) -/

/-- How long the next ready-wait lasts (`none`: the flag never sets), and the answers after it (assumption 8). -/
def Ready.pop (r : Ready) : Option Nat × Ready :=
  match r.next with
  | w :: ws => (some w, { r with next := ws })
  | [] => (r.rest, r)

/-- Whether a wait of `w` sees the flag before the bound has elapsed; a wait that begins with the flag set ends at
once (43_display_channel_driver.md R180, 60_exceptions.md R238; assumption 11). -/
def inTime (bound : Option Nat) (w : Nat) : Bool :=
  match bound with
  | none => true
  | some t => w == 0 || decide (w < t)

/-- The wait ended because the flag was seen set: `BusReady(c)`, the request is over; the display changes at this
event, if the byte taken completes a command or character (43_display_channel_driver.md R168). -/
def State.readySeen (s : State) (c : Chan) (w : Nat) (r : Ready) (v : View → View) : State :=
  { (((s.modLine c fun l => { l with ready := r, view := v l.view }).modDrv c fun d =>
      { d with busReq := .none }).emit (.busReady c)) with time := s.time + w }

/-- The wait was given up after `t` (60_exceptions.md R238). -/
def State.readyGivenUp (s : State) (c : Chan) (t : Nat) : Run :=
  { s with time := s.time + t }.raise (.busTimeout c)

/-- `ready_wait(c)` (43_display_channel_driver.md R165, R178): without a bound, a flag that never sets leaves the
block in the wait, its request outstanding, and nothing more happens; with a bound the wait is given up. `v` is what
the display does with the byte once it is taken. -/
def readyWait (c : Chan) (v : View → View) (s : State) : Run :=
  match (s.line c).ready.pop with
  | (some w, r) =>
    if inTime s.cfg.busTimeout w then resetPoint (s.readySeen c w r v)
    else s.readyGivenUp c (s.cfg.busTimeout.getD 0)
  | (none, _) =>
    match s.cfg.busTimeout with
    | none => .stop s
    | some t => s.readyGivenUp c t

/-- A bus request is outstanding between two steps: the block is in a ready-wait whose flag never sets (R178). -/
def State.stalled (s : State) : Bool := s.drv1.busReq != .none || s.drv2.busReq != .none

/-- The scanner is between two strobes of a call that has not captured a pattern (40_keypad_scanner.md R122, R130). -/
def State.scanning (s : State) : Bool := s.ksPhase != .idle

/-- The controller stands in `SC_HALT` (45_session_controller.md R222). -/
def State.halted (s : State) : Bool := s.scPhase == .halt

/-- No operation is left unfinished, the block is not halted and `rst` is not asserted: the last operation returned to
its caller. -/
def State.free (s : State) : Bool := !s.rst && !s.stalled && !s.scanning && !s.halted

/-! ## Results -/

/-- The digit handed to the caller. -/
def Ret.toDigit : Ret → Nibble
  | .digit d => d
  | _ => 0

/-- The Morse word handed to the caller. -/
def Ret.toWord : Ret → Byte
  | .word w => w
  | _ => 0

/-- Hand a digit to the caller. -/
def State.returnDigit (s : State) (d : Nibble) : State := { s with ret := .digit d }

/-- Hand a Morse word to the caller. -/
def State.returnWord (s : State) (w : Byte) : State := { s with ret := .word w }

end Sys2Proof.Machine
end

