-- ==== Sys2Proof/Machine/Cipher.lean ====
section
/-! DEFINITION. The cipher engine: CE.ENCRYPT (41_cipher_engine.md). Combinational: no register, no event, no time
(R140); its result goes to the caller. -/

namespace Sys2Proof.Machine

/-- The encrypted digit handed to the caller (41_cipher_engine.md R141). -/
def encryptOp (digit : Nibble) (position : Position) (s : State) : State :=
  s.returnDigit (encryptDigit s.cfg digit position)

/-- CE.ENCRYPT (41_cipher_engine.md R141, R147). -/
def execCeEncrypt (digit : Nibble) (position : Position) (s : State) : Host.Outcome State Fault Refusal :=
  .next (encryptOp digit position s)

end Sys2Proof.Machine
end

