-- ==== Sys2Proof/Machine/Display.lean ====
section
/-! DEFINITION. The display channel driver (43_display_channel_driver.md): the eight DCD operations on each channel,
the five display commands of format DC and the two frame forms of format BF. Each operation is written once for a
channel; a meaning checks `d_init` (R163, R170) and performs it. -/

namespace Sys2Proof.Machine

open Sys2Proof.Config

/-! ## Transfers -/

/-- DCD.SENDBYTE: hand over one byte and wait for ready (43_display_channel_driver.md R164). DESIGN CHOICE: any byte is
sent, also one that would be a frame with `rw` = 1 (assumption 35). `v` is what the display does when it has taken the
byte. -/
def sendByte (c : Chan) (b : Byte) (v : View → View) (s : State) : Run :=
  (writeData c b s).andThen (readyWait c v)

/-- `sleep(T_STEP)` (43_display_channel_driver.md R167). -/
def stepDelay (s : State) : Run := s.sleep s.cfg.tStep

/-- `d_step[c]` goes to the next step of the transfer, modulo 4 (43_display_channel_driver.md R166; assumption 17). -/
def nextStep (c : Chan) (s : State) : State := s.modDrv c fun d => { d with step := d.step + 1 }

/-- `d_phase[c] <- ph` (43_display_channel_driver.md R162). -/
def setPhase (c : Chan) (ph : DPhase) (s : State) : State := s.modDrv c fun d => { d with phase := ph }

/-- `cur[c] <- v` (10_state.md R34). -/
def setCursor (c : Chan) (v : BitVec 3) (s : State) : State := s.modDrv c fun d => { d with cur := v }

/-- One frame of a nibble transfer, its ready-wait and its delay (43_display_channel_driver.md R166). -/
def sendFrame (c : Chan) (n : Nibble) (en rs : Bool) (v : View → View) (s : State) : Run :=
  ((sendByte c (frame s.cfg n en rs) v s).andThen stepDelay).andThen fun t => .done (nextStep c t)

/-- DCD.SENDNIBBLE: the nibble with the strobe asserted, then deasserted, where the display latches it
(43_display_channel_driver.md R166). -/
def sendNibble (c : Chan) (n : Nibble) (rs : Bool) (v : View → View) (s : State) : Run :=
  (sendFrame c n true rs id s).andThen (sendFrame c n false rs v)

/-- The registers of a byte transfer at its start: `d_byte`, `d_rs`, step 0, `D_XFER`
(43_display_channel_driver.md R162, R168). -/
def beginTransfer (c : Chan) (rs : Bool) (b : Byte) (s : State) : State :=
  s.modDrv c fun d => { d with byte := b, rs := rs, step := 0, phase := .xfer }

/-- A whole byte, high nibble then low nibble; with the fourth frame the display has it (43_display_channel_driver.md
R168, 10_state.md R44). -/
def transfer (c : Chan) (rs : Bool) (b : Byte) (s : State) : Run :=
  (sendNibble c (highNibble b) rs id (beginTransfer c rs b s)).andThen fun t =>
    sendNibble c (lowNibble b) rs (View.receive t.cfg rs b) t

/-- The operation is over: `D_DONE`, then `D_IDLE` (43_display_channel_driver.md R162). -/
def finish (c : Chan) (s : State) : Run := .done (setPhase c .idle (setPhase c .done s))

/-! ## The operations, on a channel -/

/-- DCD.WRITECOMMAND (43_display_channel_driver.md R169). -/
def writeCommand (c : Chan) (b : Byte) (s : State) : Run := (transfer c false b s).andThen (finish c)

/-- DCD.WRITECHAR (43_display_channel_driver.md R176). -/
def writeChar (c : Chan) (b : Byte) (s : State) : Run :=
  (transfer c true b s).andThen fun t => finish c (setCursor c ((t.drv c).cur + 1) t)

/-- DCD.CLEAR: clear, home, settle, cursor 0 (43_display_channel_driver.md R172, R173). -/
def clearDisplay (c : Chan) (s : State) : Run :=
  (((transfer c false s.cfg.cmdClear s).andThen fun t => transfer c false t.cfg.cmdHome t).andThen fun t =>
    (setPhase c .settle t).sleep t.cfg.tClearSettle).andThen fun t => finish c (setCursor c 0 t)

/-- DCD.MOVECURSOR (43_display_channel_driver.md R174). -/
def moveCursor (c : Chan) (o : BitVec 2) (s : State) : Run :=
  (transfer c false (cursorCommand s.cfg o) s).andThen fun t => finish c (setCursor c (o.setWidth 3) t)

/-- DCD.DISPLAYOFF (43_display_channel_driver.md R177). -/
def displayOff (c : Chan) (s : State) : Run := writeCommand c s.cfg.cmdDisplayOff s

/-- `d_seq[c] <- j` (43_display_channel_driver.md R162). -/
def setSeq (c : Chan) (j : Nat) (s : State) : State := s.modDrv c fun d => { d with seq := BitVec.ofNat 4 j }

/-- One raw byte of the initialisation sequence, as it stands, and its delay (43_display_channel_driver.md R171;
assumption 34). -/
def sendRaw (c : Chan) (b : Byte) (s : State) : Run := (sendByte c b id s).andThen stepDelay

/-- The raw byte pairs of the initialisation sequence from pair `j` on (43_display_channel_driver.md R171). -/
def sendPairs (c : Chan) : List (Byte × Byte) → Nat → State → Run
  | [], _, s => .done s
  | (first, second) :: ps, j, s =>
    ((sendRaw c first (setSeq c j s)).andThen (sendRaw c second)).andThen (sendPairs c ps (j + 1))

/-- The initialisation sequence has been sent: the display is on and `d_init[c]` is 1 (43_display_channel_driver.md
R170, 10_state.md R44). -/
def markInitialised (c : Chan) (s : State) : State :=
  (s.modDrv c fun d => { d with inited := true }).modLine c fun l => { l with view := { l.view with on := true } }

/-- The bus is started: the start request and its ready-wait (43_display_channel_driver.md R162, R170). -/
def startBus (c : Chan) (s : State) : Run := (writeStart c (setPhase c .start s)).andThen (readyWait c id)

/-- The display is addressed: the address request and its ready-wait (43_display_channel_driver.md R162, R170). -/
def addressBus (c : Chan) (s : State) : Run :=
  (writeAddr c (busAddr s.cfg c) (setPhase c .addr s)).andThen (readyWait c id)

/-- DCD.INITIALIZE: start, address, the sequence, clear (43_display_channel_driver.md R162, R170). -/
def initDisplay (c : Chan) (s : State) : Run :=
  (((startBus c s).andThen (addressBus c)).andThen fun t =>
    sendPairs c t.cfg.initSeq 0 (setPhase c .seq t)).andThen fun t =>
  clearDisplay c (markInitialised c t)

/-! ## Preconditions -/

/-- Every operation but DCD.INITIALIZE needs `d_init[c] = 1` (43_display_channel_driver.md R163; U9). -/
def ifInitialised (c : Chan) (s : State) (r : Run) : Host.Outcome State Fault Refusal :=
  if (s.drv c).inited then r.result else .refused (.notInitialised c)

/-- DCD.INITIALIZE is performed once per channel and on a bus not yet started (43_display_channel_driver.md R170,
20_memory.md R58, 70_reset_and_hazards.md R267; U10, U11). -/
def ifUninitialised (c : Chan) (s : State) (r : Host.Outcome State Fault Refusal) :
    Host.Outcome State Fault Refusal :=
  if (s.drv c).inited then .refused (.alreadyInitialised c)
  else if (s.line c).started then .refused (.busAlreadyStarted c)
  else r

/-! ## The meanings of the DCD operations -/

/-- DCD.INITIALIZE on channel 1 (R170). -/
def execDcdInitializeCh1 (s : State) : Host.Outcome State Fault Refusal :=
  ifUninitialised .ch1 s (initDisplay .ch1 s).result

/-- DCD.SENDBYTE on channel 1 (R164); any byte is sent (assumption 35). -/
def execDcdSendbyteCh1 (b : Byte) (s : State) : Host.Outcome State Fault Refusal :=
  ifInitialised .ch1 s (sendByte .ch1 b id s)

/-- DCD.SENDNIBBLE on channel 1 (R166). -/
def execDcdSendnibbleCh1 (n : Nibble) (rs : Bool) (s : State) : Host.Outcome State Fault Refusal :=
  ifInitialised .ch1 s (sendNibble .ch1 n rs id s)

/-- DCD.WRITECOMMAND on channel 1 (R169). -/
def execDcdWritecommandCh1 (b : Byte) (s : State) : Host.Outcome State Fault Refusal :=
  ifInitialised .ch1 s (writeCommand .ch1 b s)

/-- DCD.WRITECHAR on channel 1 (R176). -/
def execDcdWritecharCh1 (b : Byte) (s : State) : Host.Outcome State Fault Refusal :=
  ifInitialised .ch1 s (writeChar .ch1 b s)

/-- DCD.CLEAR on channel 1 (R172). -/
def execDcdClearCh1 (s : State) : Host.Outcome State Fault Refusal :=
  ifInitialised .ch1 s (clearDisplay .ch1 s)

/-- DCD.MOVECURSOR on channel 1 (R174). -/
def execDcdMovecursorCh1 (o : BitVec 2) (s : State) : Host.Outcome State Fault Refusal :=
  ifInitialised .ch1 s (moveCursor .ch1 o s)

/-- DCD.DISPLAYOFF on channel 1 (R177). -/
def execDcdDisplayoffCh1 (s : State) : Host.Outcome State Fault Refusal :=
  ifInitialised .ch1 s (displayOff .ch1 s)

/-- DCD.INITIALIZE on channel 2 (R170). -/
def execDcdInitializeCh2 (s : State) : Host.Outcome State Fault Refusal :=
  ifUninitialised .ch2 s (initDisplay .ch2 s).result

/-- DCD.SENDBYTE on channel 2 (R164); any byte is sent (assumption 35). -/
def execDcdSendbyteCh2 (b : Byte) (s : State) : Host.Outcome State Fault Refusal :=
  ifInitialised .ch2 s (sendByte .ch2 b id s)

/-- DCD.SENDNIBBLE on channel 2 (R166). -/
def execDcdSendnibbleCh2 (n : Nibble) (rs : Bool) (s : State) : Host.Outcome State Fault Refusal :=
  ifInitialised .ch2 s (sendNibble .ch2 n rs id s)

/-- DCD.WRITECOMMAND on channel 2 (R169). -/
def execDcdWritecommandCh2 (b : Byte) (s : State) : Host.Outcome State Fault Refusal :=
  ifInitialised .ch2 s (writeCommand .ch2 b s)

/-- DCD.WRITECHAR on channel 2 (R176). -/
def execDcdWritecharCh2 (b : Byte) (s : State) : Host.Outcome State Fault Refusal :=
  ifInitialised .ch2 s (writeChar .ch2 b s)

/-- DCD.CLEAR on channel 2 (R172). -/
def execDcdClearCh2 (s : State) : Host.Outcome State Fault Refusal :=
  ifInitialised .ch2 s (clearDisplay .ch2 s)

/-- DCD.MOVECURSOR on channel 2 (R174). -/
def execDcdMovecursorCh2 (o : BitVec 2) (s : State) : Host.Outcome State Fault Refusal :=
  ifInitialised .ch2 s (moveCursor .ch2 o s)

/-- DCD.DISPLAYOFF on channel 2 (R177). -/
def execDcdDisplayoffCh2 (s : State) : Host.Outcome State Fault Refusal :=
  ifInitialised .ch2 s (displayOff .ch2 s)

/-! ## The display commands of format DC (30_encoding.md R92; assumption 21) -/

/-- DC.CLEAR: the clear command is transferred; the cursor register follows the display's cursor
(43_display_channel_driver.md R172, 10_state.md R34). -/
def execDcClear (c : Chan) (s : State) : Host.Outcome State Fault Refusal :=
  ifInitialised c s ((transfer c false s.cfg.cmdClear s).andThen fun t => finish c (setCursor c 0 t))

/-- DC.HOME: the cursor-home command is transferred (43_display_channel_driver.md R172). -/
def execDcHome (c : Chan) (s : State) : Host.Outcome State Fault Refusal :=
  ifInitialised c s ((transfer c false s.cfg.cmdHome s).andThen fun t => finish c (setCursor c 0 t))

/-- DC.SETCURSOR: set-cursor-position(`o`) is transferred (43_display_channel_driver.md R174). -/
def execDcSetcursor (c : Chan) (o : BitVec 2) (s : State) : Host.Outcome State Fault Refusal :=
  ifInitialised c s (moveCursor c o s)

/-- DC.DISPLAYOFF: display-off is transferred (43_display_channel_driver.md R177). -/
def execDcDisplayoff (c : Chan) (s : State) : Host.Outcome State Fault Refusal :=
  ifInitialised c s (displayOff c s)

/-- DC.WRITECHAR: write-character(`b`) is transferred (43_display_channel_driver.md R176). -/
def execDcWritechar (c : Chan) (b : Byte) (s : State) : Host.Outcome State Fault Refusal :=
  ifInitialised c s (writeChar c b s)

/-! ## The frames of format BF (30_encoding.md R91; assumption 22) -/

/-- BF.COMMAND: one frame with `rs` = 0, its ready-wait and its delay (43_display_channel_driver.md R166). -/
def execBfCommand (c : Chan) (n : Nibble) (en : Bool) (s : State) : Host.Outcome State Fault Refusal :=
  ifInitialised c s (sendFrame c n en false id s)

/-- BF.CHARACTER: one frame with `rs` = 1, its ready-wait and its delay (43_display_channel_driver.md R166). -/
def execBfCharacter (c : Chan) (n : Nibble) (en : Bool) (s : State) : Host.Outcome State Fault Refusal :=
  ifInitialised c s (sendFrame c n en true id s)

end Sys2Proof.Machine
end

