-- ==== Sys2Proof/Machine/Morse.lean ====
section
/-! DEFINITION. The Morse encoder: ME.ENCODE (42_morse_encoder.md) and the 11 words of its table, format MW.
Combinational: no register, no event, no time (R150); the word goes to the caller. -/

namespace Sys2Proof.Machine

/-- The table word of a digit handed to the caller (42_morse_encoder.md R151). -/
def encodeOp (digit : Nibble) (s : State) : State := s.returnWord (morseRom digit)

/-- ME.ENCODE (42_morse_encoder.md R151, R152). -/
def execMeEncode (digit : Nibble) (s : State) : Host.Outcome State Fault Refusal := .next (encodeOp digit s)

/-- MW.DIGIT0: the table word of the digit 0 (30_encoding.md R98; assumption 19). -/
def execMwDigit0 (s : State) : Host.Outcome State Fault Refusal := .next (encodeOp 0 s)

/-- MW.DIGIT1: the table word of the digit 1 (30_encoding.md R98; assumption 19). -/
def execMwDigit1 (s : State) : Host.Outcome State Fault Refusal := .next (encodeOp 1 s)

/-- MW.DIGIT2: the table word of the digit 2 (30_encoding.md R98; assumption 19). -/
def execMwDigit2 (s : State) : Host.Outcome State Fault Refusal := .next (encodeOp 2 s)

/-- MW.DIGIT3: the table word of the digit 3 (30_encoding.md R98; assumption 19). -/
def execMwDigit3 (s : State) : Host.Outcome State Fault Refusal := .next (encodeOp 3 s)

/-- MW.DIGIT4: the table word of the digit 4 (30_encoding.md R98; assumption 19). -/
def execMwDigit4 (s : State) : Host.Outcome State Fault Refusal := .next (encodeOp 4 s)

/-- MW.DIGIT5: the table word of the digit 5 (30_encoding.md R98; assumption 19). -/
def execMwDigit5 (s : State) : Host.Outcome State Fault Refusal := .next (encodeOp 5 s)

/-- MW.DIGIT6: the table word of the digit 6 (30_encoding.md R98; assumption 19). -/
def execMwDigit6 (s : State) : Host.Outcome State Fault Refusal := .next (encodeOp 6 s)

/-- MW.DIGIT7: the table word of the digit 7 (30_encoding.md R98; assumption 19). -/
def execMwDigit7 (s : State) : Host.Outcome State Fault Refusal := .next (encodeOp 7 s)

/-- MW.DIGIT8: the table word of the digit 8 (30_encoding.md R98; assumption 19). -/
def execMwDigit8 (s : State) : Host.Outcome State Fault Refusal := .next (encodeOp 8 s)

/-- MW.DIGIT9: the table word of the digit 9 (30_encoding.md R98; assumption 19). -/
def execMwDigit9 (s : State) : Host.Outcome State Fault Refusal := .next (encodeOp 9 s)

/-- MW.EMPTY: the word the table holds for the undefined inputs (42_morse_encoder.md R152; assumption 19). -/
def execMwEmpty (s : State) : Host.Outcome State Fault Refusal := .next (encodeOp 10 s)

end Sys2Proof.Machine
end

