-- ==== Sys2Proof/Machine/Player.lean ====
section
/-! DEFINITION. The LED Morse player: LMP.PLAY (44_led_morse_player.md). -/

namespace Sys2Proof.Machine

/-- `lmp_state <- st` (44_led_morse_player.md R193). -/
def setPlayer (st : LmpState) (s : State) : State := { s with lmpState := st }

/-- The hold of a mark: `T_DASH` or `T_DOT` (44_led_morse_player.md R191, R192). -/
def holdTime (p : Config.Params) (dash : Bool) : Nat := if dash then p.tDash else p.tDot

/-- `MarkOn`: the line asserted for the duration of mark `i` (44_led_morse_player.md R191, R193). -/
def markOn (w : Byte) (i : Nat) (s : State) : Run :=
  (writeLed true (setPlayer .markOn { s with lmpIdx := BitVec.ofNat 3 i })).andThen fun t =>
    t.sleep (holdTime t.cfg (markAt w i))

/-- `GapOff`: the line deasserted for the inter-mark gap (44_led_morse_player.md R191, R193). -/
def gapOff (s : State) : Run := (writeLed false (setPlayer .gapOff s)).andThen fun t => t.sleep t.cfg.tDot

/-- Mark `i` of the word and its gap (44_led_morse_player.md R191). -/
def playMark (w : Byte) (i : Nat) (s : State) : Run := (markOn w i s).andThen gapOff

/-- `n` marks from mark `i` on. -/
def playMarks (w : Byte) : Nat → Nat → State → Run
  | 0, _, s => .done s
  | n + 1, i, s => (playMark w i s).andThen (playMarks w n (i + 1))

/-- The inter-character gap, spent in `GapOff` (44_led_morse_player.md R191, R193). -/
def charGap (s : State) : Run := (setPlayer .gapOff s).sleep s.cfg.tCharGap

/-- LMP.PLAY's body: the marks in order, the inter-character gap, idle (44_led_morse_player.md R191, R195). -/
def playWord (w : Byte) (s : State) : Run :=
  ((playMarks w (markCount w) 0 s).andThen charGap).andThen fun t => .done (setPlayer .idle t)

/-- LMP.PLAY; a word with `len` 6 or 7 is refused (44_led_morse_player.md R191, R196; U7). -/
def execLmpPlay (w : Byte) (s : State) : Host.Outcome State Fault Refusal :=
  if markCount w ≤ 5 then (playWord w s).result else .refused .morseLength

end Sys2Proof.Machine
end

