-- ==== Sys2Proof/Machine/Scanner.lean ====
section
/-! DEFINITION. The keypad scanner: KS.READDIGIT (40_keypad_scanner.md) and the 16 keypad patterns of format KP. -/

namespace Sys2Proof.Machine

/-- `ks_phase <- ph` (40_keypad_scanner.md R122). -/
def setKs (ph : KsPhase) (s : State) : State := { s with ksPhase := ph }

/-- `KS_DONE`: the digit is handed to the caller; then the scanner is idle (40_keypad_scanner.md R122). -/
def deliverDigit (d : Nibble) (s : State) : Run := .done (setKs .idle ((setKs .done s).returnDigit d))

/-- No digit slot matches: NoMatch, and the digit of slot 0 (40_keypad_scanner.md R128). -/
def noDigit (s : State) : Run :=
  (s.raise (.noMatch s.ksPat)).andThen fun t => deliverDigit (keymapRom t.cfg 0).digit t

/-- The table search and its outcome (40_keypad_scanner.md R127, R128): the digit of the matching digit slot, or
the digit of slot 0 with NoMatch. -/
def lookupPattern (s : State) : Run :=
  match findSlot s.ksPat s.cfg.keymap 0 with
  | some j =>
    let t := { s with ksSlot := BitVec.ofNat 4 j }
    if (keymapRom s.cfg j).isDigit then deliverDigit (keymapRom s.cfg j).digit t else noDigit t
  | none => noDigit { s with ksSlot := 0 }

/-- `KS_DRIVE`, `KS_SETTLE`: strobe the current row and wait the settle delay (40_keypad_scanner.md R122 to R124). -/
def strobeRow (s : State) : Run :=
  (writeRows (strobe s.cfg s.ksRow) (setKs .drive s)).andThen fun t => (setKs .settle t).sleep t.cfg.tRowSettle

/-- The sample at the end of the settle delay, listed or by the held keys and the rows as driven
(40_keypad_scanner.md R125, 10_state.md R41). -/
def columnsNow (s : State) : Nibble := s.cols.headD (columns s.cfg s.keys s.kpRow)

/-- `KS_SAMPLE`: the columns are read; a listed sample is used up (40_keypad_scanner.md R122, R125). -/
def sampleColumns (s : State) : Run :=
  resetPoint ((setKs .sample { s with cols := s.cols.tail }).emit (.sample (columnsNow s)))

/-- `KS_LOOKUP`: the sample `c` was not idle; capture the pattern, release the rows, search the table
(40_keypad_scanner.md R122, R125, R133, R127). -/
def capturePattern (c : Nibble) (s : State) : Run :=
  (writeRows (allInactive s.cfg) (setKs .lookup { s with ksPat := keyPattern s.kpRow c })).andThen lookupPattern

/-- The sample was idle: `KS_DRIVE` with the next row (40_keypad_scanner.md R122, R126). -/
def nextRow (s : State) : State := setKs .drive { s with ksRow := s.ksRow + 1 }

/-- One turn of the loop of 40_keypad_scanner.md R121; `more` is what follows an idle sample. -/
def scanRow (more : State → Run) (s : State) : Run :=
  (strobeRow s).andThen fun t => (sampleColumns t).andThen fun u =>
    if columnsNow t ≠ u.cfg.colIdle then capturePattern (columnsNow t) u else more (nextRow u)

/-- At most `n` turns of the loop; then the scan is left waiting at the row it has reached (40_keypad_scanner.md R130;
assumption 10). -/
def scanRows : Nat → State → Run
  | 0, s => .stop s
  | n + 1, s => scanRow (scanRows n) s

/-- The turns of one step: as many as samples are listed, then one pass of the four rows for the held keys
(assumption 10). -/
def scanTurns (s : State) : Nat := s.cols.length + 4

/-- KS.READDIGIT from its first statement: every call starts at row 0 (40_keypad_scanner.md R121, R123). -/
def readDigit (s : State) : Run := scanRows (scanTurns s) (setKs .drive { s with ksRow := 0 })

/-- A scan that is waiting for a key goes on from the row it has reached (40_keypad_scanner.md R130). -/
def resumeScan (s : State) : Run := scanRows (scanTurns s) s

/-- KS.READDIGIT (40_keypad_scanner.md R121). -/
def execKsReaddigit (s : State) : Host.Outcome State Fault Refusal := (readDigit s).result

/-- The pattern of table slot `k` has been captured: what the scanner makes of it (40_keypad_scanner.md R127, R128;
assumption 20). -/
def slotPattern (k : Nat) (s : State) : Run :=
  lookupPattern (setKs .lookup { s with ksPat := (keymapRom s.cfg k).pattern })

/-- KP.SLOT0.KEY_0: slot 0 of the table; in the default build a digit slot, the digit 0 (30_encoding.md R84, R127). -/
def execKpSlot0Key0 (s : State) : Host.Outcome State Fault Refusal := (slotPattern 0 s).result

/-- KP.SLOT1.KEY_1: slot 1 of the table; in the default build a digit slot, the digit 1 (30_encoding.md R84, R127). -/
def execKpSlot1Key1 (s : State) : Host.Outcome State Fault Refusal := (slotPattern 1 s).result

/-- KP.SLOT2.KEY_2: slot 2 of the table; in the default build a digit slot, the digit 2 (30_encoding.md R84, R127). -/
def execKpSlot2Key2 (s : State) : Host.Outcome State Fault Refusal := (slotPattern 2 s).result

/-- KP.SLOT3.KEY_3: slot 3 of the table; in the default build a digit slot, the digit 3 (30_encoding.md R84, R127). -/
def execKpSlot3Key3 (s : State) : Host.Outcome State Fault Refusal := (slotPattern 3 s).result

/-- KP.SLOT4.KEY_4: slot 4 of the table; in the default build a digit slot, the digit 4 (30_encoding.md R84, R127). -/
def execKpSlot4Key4 (s : State) : Host.Outcome State Fault Refusal := (slotPattern 4 s).result

/-- KP.SLOT5.KEY_5: slot 5 of the table; in the default build a digit slot, the digit 5 (30_encoding.md R84, R127). -/
def execKpSlot5Key5 (s : State) : Host.Outcome State Fault Refusal := (slotPattern 5 s).result

/-- KP.SLOT6.KEY_6: slot 6 of the table; in the default build a digit slot, the digit 6 (30_encoding.md R84, R127). -/
def execKpSlot6Key6 (s : State) : Host.Outcome State Fault Refusal := (slotPattern 6 s).result

/-- KP.SLOT7.KEY_7: slot 7 of the table; in the default build a digit slot, the digit 7 (30_encoding.md R84, R127). -/
def execKpSlot7Key7 (s : State) : Host.Outcome State Fault Refusal := (slotPattern 7 s).result

/-- KP.SLOT8.KEY_8: slot 8 of the table; in the default build a digit slot, the digit 8 (30_encoding.md R84, R127). -/
def execKpSlot8Key8 (s : State) : Host.Outcome State Fault Refusal := (slotPattern 8 s).result

/-- KP.SLOT9.KEY_9: slot 9 of the table; in the default build a digit slot, the digit 9 (30_encoding.md R84, R127). -/
def execKpSlot9Key9 (s : State) : Host.Outcome State Fault Refusal := (slotPattern 9 s).result

/-- KP.SLOT10.KEY_A: slot 10 of the table; in the default build a reserved slot, NoMatch and the
fallback digit (30_encoding.md R84, R128). -/
def execKpSlot10KeyA (s : State) : Host.Outcome State Fault Refusal := (slotPattern 10 s).result

/-- KP.SLOT11.KEY_B: slot 11 of the table; in the default build a reserved slot, NoMatch and the
fallback digit (30_encoding.md R84, R128). -/
def execKpSlot11KeyB (s : State) : Host.Outcome State Fault Refusal := (slotPattern 11 s).result

/-- KP.SLOT12.KEY_C: slot 12 of the table; in the default build a reserved slot, NoMatch and the
fallback digit (30_encoding.md R84, R128). -/
def execKpSlot12KeyC (s : State) : Host.Outcome State Fault Refusal := (slotPattern 12 s).result

/-- KP.SLOT13.KEY_D: slot 13 of the table; in the default build a reserved slot, NoMatch and the
fallback digit (30_encoding.md R84, R128). -/
def execKpSlot13KeyD (s : State) : Host.Outcome State Fault Refusal := (slotPattern 13 s).result

/-- KP.SLOT14.KEY_STAR: slot 14 of the table; in the default build a reserved slot, NoMatch and the
fallback digit (30_encoding.md R84, R128). -/
def execKpSlot14KeyStar (s : State) : Host.Outcome State Fault Refusal := (slotPattern 14 s).result

/-- KP.SLOT15.KEY_HASH: slot 15 of the table; in the default build a reserved slot, NoMatch and the
fallback digit (30_encoding.md R84, R128). -/
def execKpSlot15KeyHash (s : State) : Host.Outcome State Fault Refusal := (slotPattern 15 s).result

end Sys2Proof.Machine
end

