-- ==== Sys2Proof/Machine/Session.lean ====
section
/-! DEFINITION. The session controller (45_session_controller.md): SC.START, SC.ITERATE, SC.TERMINATE, SC.RUN. Each
phase of the walk of R206 sets `sc_phase` while its operation is in progress. -/

namespace Sys2Proof.Machine

/-- `sc_phase <- ph` (45_session_controller.md R206). -/
def setSc (ph : ScPhase) (s : State) : State := { s with scPhase := ph }

/-! ## SC.START (45_session_controller.md R207) -/

/-- Initialise channel 1, then channel 2. -/
def startSession (s : State) : Run :=
  ((initDisplay .ch1 (setSc .init1 s)).andThen fun t => initDisplay .ch2 (setSc .init2 t)).andThen fun t =>
    .done (setSc .check t)

/-! ## SC.ITERATE (45_session_controller.md R209) -/

/-- `cnt <- 0`, the window is empty again (45_session_controller.md R210, 10_state.md R39). -/
def emptyWindow (s : State) : State := { s with cnt := 0, window := [] }

/-- The window settle (45_session_controller.md R211). -/
def windowSettle (s : State) : Run := (emptyWindow s).sleep s.cfg.tWindowSettle

/-- The window-boundary reset when `cnt = 4` (45_session_controller.md R210). -/
def windowBoundary (s : State) : Run :=
  if s.cnt = 4 then
    ((clearDisplay .ch1 (setSc .wclr1 s)).andThen fun t => clearDisplay .ch2 (setSc .wclr2 t)).andThen fun t =>
      windowSettle (setSc .wsettle t)
  else .done s

/-- `dig` takes the scanner's result (45_session_controller.md R212). -/
def latchDigit (s : State) : State := { s with dig := s.ret.toDigit }

/-- `enc` takes the cipher's result and `pos` is counted in `POS_WIDTH` bits (45_session_controller.md R213,
41_cipher_engine.md R148). -/
def latchEncrypted (s : State) : State :=
  { s with enc := s.ret.toDigit, pos := (s.pos + 1) % 2 ^ s.cfg.posWidth }

/-- `mw` takes the encoder's result (45_session_controller.md R213). -/
def latchMorse (s : State) : State := { s with mw := s.ret.toWord }

/-- Read one digit (45_session_controller.md R212). -/
def readPhase (s : State) : Run := (readDigit (setSc .read s)).andThen fun t => .done (latchDigit t)

/-- Encrypt at `pos`, count the position, encode (45_session_controller.md R213). -/
def cipherPhase (s : State) : State :=
  let t := latchEncrypted (encryptOp s.dig s.pos (setSc .cipher s))
  latchMorse (encodeOp t.enc t)

/-- Channel 1: clear on the first digit of a window, else move the cursor to `cnt` (45_session_controller.md R214). -/
def positionPhase (s : State) : Run :=
  let t := setSc .ch1pos s
  if t.cnt = 0 then clearDisplay .ch1 t else moveCursor .ch1 (t.cnt.setWidth 2) t

/-- Channel 1: write the raw digit (45_session_controller.md R214). -/
def rawDigitPhase (s : State) : Run := writeChar .ch1 (digitChar s.dig) (setSc .ch1wr s)

/-- Channel 2: clear (45_session_controller.md R215). -/
def clearPhase (s : State) : Run := clearDisplay .ch2 (setSc .ch2clr s)

/-- Channel 2: write the encrypted digit (45_session_controller.md R215). -/
def encDigitPhase (s : State) : Run := writeChar .ch2 (digitChar s.enc) (setSc .ch2dig s)

/-- Channel 2: write mark character `i` (45_session_controller.md R217). -/
def writeMark (i : Nat) (s : State) : Run :=
  writeChar .ch2 (markChar (markAt s.mw i)) { s with scMi := BitVec.ofNat 3 i }

/-- `n` mark characters from mark `i` on. -/
def writeMarks : Nat → Nat → State → Run
  | 0, _, s => .done s
  | n + 1, i, s => (writeMark i s).andThen (writeMarks n (i + 1))

/-- Channel 2: write every mark character of the word (45_session_controller.md R217). -/
def marksPhase (s : State) : Run := writeMarks (markCount s.mw) 0 (setSc .ch2mrk s)

/-- Play the word (45_session_controller.md R216). -/
def playPhase (s : State) : Run := playWord s.mw (setSc .play s)

/-- `cnt + 1`, `rem - 1` (45_session_controller.md R218); `rem` is never decremented at 0, where the subtraction of
naturals leaves it (10_state.md R26; assumption 15). The ghost window takes the digit (10_state.md R39). -/
def advanceCounts (s : State) : State :=
  { s with cnt := s.cnt + 1, window := s.window ++ [s.dig], rem := s.rem - 1 }

/-- One iteration (45_session_controller.md R209). -/
def iterateSession (s : State) : Run :=
  (((((((((windowBoundary s).andThen readPhase).andThen fun t => .done (cipherPhase t)).andThen
    positionPhase).andThen rawDigitPhase).andThen clearPhase).andThen encDigitPhase).andThen marksPhase).andThen
    playPhase).andThen fun t => .done (setSc .check (advanceCounts (setSc .adv t)))

/-! ## SC.TERMINATE (45_session_controller.md R221) -/

/-- `st_done <- 1`, `Done`, `SC_HALT`. -/
def haltDone (s : State) : Run := (resetPoint (s.setDone.emit .done)).andThen fun t => .done t.halt

/-- Display-off on channel 1, then channel 2, then the end of the run. -/
def terminateSession (s : State) : Run :=
  ((displayOff .ch1 (setSc .off1 s)).andThen fun t => displayOff .ch2 (setSc .off2 t)).andThen haltDone

/-! ## SC.RUN (45_session_controller.md R205, R208) -/

/-- Iterations while `rem ≠ 0`; each completed one takes 1 from `rem`, so `rem` iterations are enough. -/
def iterations : Nat → State → Run
  | 0, s => .done s
  | n + 1, s => if s.rem = 0 then .done s else (iterateSession s).andThen (iterations n)

/-- The whole run. -/
def runSession (s : State) : Run :=
  ((startSession s).andThen fun t => iterations t.rem t).andThen terminateSession

/-! ## The meanings -/

/-- Both channels not yet initialised (43_display_channel_driver.md R170; U10, U11). -/
def ifSessionNew (s : State) (r : Run) : Host.Outcome State Fault Refusal :=
  ifUninitialised .ch1 s (ifUninitialised .ch2 s r.result)

/-- Both channels initialised (43_display_channel_driver.md R163; U9). -/
def ifSessionOpen (s : State) (r : Run) : Host.Outcome State Fault Refusal :=
  if s.drv1.inited then ifInitialised .ch2 s r else .refused (.notInitialised .ch1)

/-- SC.START (45_session_controller.md R207). -/
def execScStart (s : State) : Host.Outcome State Fault Refusal := ifSessionNew s (startSession s)

/-- SC.ITERATE (45_session_controller.md R209). -/
def execScIterate (s : State) : Host.Outcome State Fault Refusal := ifSessionOpen s (iterateSession s)

/-- SC.TERMINATE (45_session_controller.md R221). -/
def execScTerminate (s : State) : Host.Outcome State Fault Refusal := ifSessionOpen s (terminateSession s)

/-- SC.RUN (45_session_controller.md R205). -/
def execScRun (s : State) : Host.Outcome State Fault Refusal := ifSessionNew s (runSession s)

end Sys2Proof.Machine
end

