-- ==== Sys2Proof/Machine/Dispatch.lean ====
section
/-! DEFINITION. One arm per constructor of Instr, each one call of its meaning. -/

namespace Sys2Proof.Machine

def exec (i : Instr) (s : State) : Host.Outcome State Fault Refusal :=
  match i with
  | .ksReaddigit => Sys2Proof.Machine.execKsReaddigit s
  | .ceEncrypt digit position => Sys2Proof.Machine.execCeEncrypt digit position s
  | .meEncode digit => Sys2Proof.Machine.execMeEncode digit s
  | .dcdInitializeCh1 => Sys2Proof.Machine.execDcdInitializeCh1 s
  | .dcdSendbyteCh1 b => Sys2Proof.Machine.execDcdSendbyteCh1 b s
  | .dcdSendnibbleCh1 n rs => Sys2Proof.Machine.execDcdSendnibbleCh1 n rs s
  | .dcdWritecommandCh1 b => Sys2Proof.Machine.execDcdWritecommandCh1 b s
  | .dcdWritecharCh1 b => Sys2Proof.Machine.execDcdWritecharCh1 b s
  | .dcdClearCh1 => Sys2Proof.Machine.execDcdClearCh1 s
  | .dcdMovecursorCh1 o => Sys2Proof.Machine.execDcdMovecursorCh1 o s
  | .dcdDisplayoffCh1 => Sys2Proof.Machine.execDcdDisplayoffCh1 s
  | .lmpPlay w => Sys2Proof.Machine.execLmpPlay w s
  | .scStart => Sys2Proof.Machine.execScStart s
  | .scIterate => Sys2Proof.Machine.execScIterate s
  | .scTerminate => Sys2Proof.Machine.execScTerminate s
  | .scRun => Sys2Proof.Machine.execScRun s
  | .dcdInitializeCh2 => Sys2Proof.Machine.execDcdInitializeCh2 s
  | .dcdSendbyteCh2 b => Sys2Proof.Machine.execDcdSendbyteCh2 b s
  | .dcdSendnibbleCh2 n rs => Sys2Proof.Machine.execDcdSendnibbleCh2 n rs s
  | .dcdWritecommandCh2 b => Sys2Proof.Machine.execDcdWritecommandCh2 b s
  | .dcdWritecharCh2 b => Sys2Proof.Machine.execDcdWritecharCh2 b s
  | .dcdClearCh2 => Sys2Proof.Machine.execDcdClearCh2 s
  | .dcdMovecursorCh2 o => Sys2Proof.Machine.execDcdMovecursorCh2 o s
  | .dcdDisplayoffCh2 => Sys2Proof.Machine.execDcdDisplayoffCh2 s
  | .dcClear c => Sys2Proof.Machine.execDcClear c s
  | .dcHome c => Sys2Proof.Machine.execDcHome c s
  | .dcSetcursor c o => Sys2Proof.Machine.execDcSetcursor c o s
  | .dcDisplayoff c => Sys2Proof.Machine.execDcDisplayoff c s
  | .dcWritechar c b => Sys2Proof.Machine.execDcWritechar c b s
  | .mwDigit0 => Sys2Proof.Machine.execMwDigit0 s
  | .mwDigit1 => Sys2Proof.Machine.execMwDigit1 s
  | .mwDigit2 => Sys2Proof.Machine.execMwDigit2 s
  | .mwDigit3 => Sys2Proof.Machine.execMwDigit3 s
  | .mwDigit4 => Sys2Proof.Machine.execMwDigit4 s
  | .mwDigit5 => Sys2Proof.Machine.execMwDigit5 s
  | .mwDigit6 => Sys2Proof.Machine.execMwDigit6 s
  | .mwDigit7 => Sys2Proof.Machine.execMwDigit7 s
  | .mwDigit8 => Sys2Proof.Machine.execMwDigit8 s
  | .mwDigit9 => Sys2Proof.Machine.execMwDigit9 s
  | .mwEmpty => Sys2Proof.Machine.execMwEmpty s
  | .bfCommand c n en => Sys2Proof.Machine.execBfCommand c n en s
  | .bfCharacter c n en => Sys2Proof.Machine.execBfCharacter c n en s
  | .kpSlot0Key0 => Sys2Proof.Machine.execKpSlot0Key0 s
  | .kpSlot1Key1 => Sys2Proof.Machine.execKpSlot1Key1 s
  | .kpSlot2Key2 => Sys2Proof.Machine.execKpSlot2Key2 s
  | .kpSlot3Key3 => Sys2Proof.Machine.execKpSlot3Key3 s
  | .kpSlot4Key4 => Sys2Proof.Machine.execKpSlot4Key4 s
  | .kpSlot5Key5 => Sys2Proof.Machine.execKpSlot5Key5 s
  | .kpSlot6Key6 => Sys2Proof.Machine.execKpSlot6Key6 s
  | .kpSlot7Key7 => Sys2Proof.Machine.execKpSlot7Key7 s
  | .kpSlot8Key8 => Sys2Proof.Machine.execKpSlot8Key8 s
  | .kpSlot9Key9 => Sys2Proof.Machine.execKpSlot9Key9 s
  | .kpSlot10KeyA => Sys2Proof.Machine.execKpSlot10KeyA s
  | .kpSlot11KeyB => Sys2Proof.Machine.execKpSlot11KeyB s
  | .kpSlot12KeyC => Sys2Proof.Machine.execKpSlot12KeyC s
  | .kpSlot13KeyD => Sys2Proof.Machine.execKpSlot13KeyD s
  | .kpSlot14KeyStar => Sys2Proof.Machine.execKpSlot14KeyStar s
  | .kpSlot15KeyHash => Sys2Proof.Machine.execKpSlot15KeyHash s

end Sys2Proof.Machine
end

