-- ==== Sys2Proof/Machine/Walk.lean ====
section
/-! DEFINITION. What the block does next of itself: the phase walk of the session controller (45_session_controller.md
R206), in which each phase performs, by `exec`, the operation the rule names; the scan that waits for a key; the
operation presented to be performed alone; the reset input. -/

namespace Sys2Proof.Machine

/-- What is performed when an operation has returned; an operation that stopped leaves its phase in place
(45_session_controller.md R206). -/
def performAfter (r : Host.Outcome State Fault Refusal) (f : State → Run) : Host.Outcome State Fault Refusal :=
  match r with
  | .next t => if t.free then (f t).result else .next t
  | .fault e => .fault e
  | .refused e => .refused e

/-- The registers and the phase that follow an operation when it has returned. -/
def whenReturned (r : Host.Outcome State Fault Refusal) (f : State → State) : Host.Outcome State Fault Refusal :=
  performAfter r fun t => .done (f t)

/-- The loop test and the window test at `SC_CHECK` (45_session_controller.md R206, R208). -/
def checkPhase (s : State) : State :=
  if s.rem = 0 then setSc .off1 s else if s.cnt = 4 then setSc .wclr1 s else setSc .read s

/-- The digit has been read: `SC_READ` is left for `SC_CIPHER` (45_session_controller.md R206, R212). -/
def leaveRead (s : State) : State := setSc .cipher (latchDigit s)

/-- The two combinational operations of `SC_CIPHER` (45_session_controller.md R213). -/
def walkCipher (s : State) : Host.Outcome State Fault Refusal :=
  whenReturned (exec (.ceEncrypt s.dig s.pos) s) fun t => latchEncrypted t

/-- The encoding of the encrypted digit, the second half of `SC_CIPHER` (45_session_controller.md R213). -/
def walkEncode (r : Host.Outcome State Fault Refusal) : Host.Outcome State Fault Refusal :=
  match r with
  | .next t => whenReturned (exec (.meEncode t.enc) t) fun u => setSc .ch1pos (latchMorse u)
  | .fault e => .fault e
  | .refused e => .refused e

/-- The positioning operation of `SC_CH1POS` (45_session_controller.md R214). -/
def positionInstr (s : State) : Instr :=
  if s.cnt = 0 then .dcdClearCh1 else .dcdMovecursorCh1 (s.cnt.setWidth 2)

/-- After a mark character: the next mark, or the play (45_session_controller.md R206, R217). -/
def afterMark (s : State) : State :=
  if s.scMi.toNat + 1 < markCount s.mw then { s with scMi := s.scMi + 1 } else setSc .play s

/-- One mark character of `SC_CH2MRK`, or none for an empty word (45_session_controller.md R217). -/
def walkMark (s : State) : Host.Outcome State Fault Refusal :=
  if s.scMi.toNat < markCount s.mw then
    whenReturned (exec (.dcdWritecharCh2 (markChar (markAt s.mw s.scMi.toNat))) s) afterMark
  else .next (setSc .play s)

/-- One phase of the walk of 45_session_controller.md R206. -/
def walk (s : State) : Host.Outcome State Fault Refusal :=
  match s.scPhase with
  | .reset => .next (setSc .init1 s)
  | .init1 => whenReturned (exec .dcdInitializeCh1 s) (setSc .init2)
  | .init2 => whenReturned (exec .dcdInitializeCh2 s) (setSc .check)
  | .check => .next (checkPhase s)
  | .wclr1 => whenReturned (exec .dcdClearCh1 s) (setSc .wclr2)
  | .wclr2 => whenReturned (exec .dcdClearCh2 s) (setSc .wsettle)
  | .wsettle => whenReturned (windowSettle s).result (setSc .read)
  | .read => whenReturned (exec .ksReaddigit s) leaveRead
  | .cipher => walkEncode (walkCipher s)
  | .ch1pos => whenReturned (exec (positionInstr s) s) (setSc .ch1wr)
  | .ch1wr => whenReturned (exec (.dcdWritecharCh1 (digitChar s.dig)) s) (setSc .ch2clr)
  | .ch2clr => whenReturned (exec .dcdClearCh2 s) (setSc .ch2dig)
  | .ch2dig =>
    whenReturned (exec (.dcdWritecharCh2 (digitChar s.enc)) s) fun t => setSc .ch2mrk { t with scMi := 0 }
  | .ch2mrk => walkMark s
  | .play => whenReturned (exec (.lmpPlay s.mw) s) (setSc .adv)
  | .adv => .next (setSc .check (advanceCounts s))
  | .off1 => whenReturned (exec .dcdDisplayoffCh1 s) (setSc .off2)
  | .off2 => performAfter (exec .dcdDisplayoffCh2 s) haltDone
  | .halt => .next s

/-- A scan that had captured no pattern goes on; when it captures one in `SC_READ`, the controller takes the digit
(40_keypad_scanner.md R130, 45_session_controller.md R212). -/
def scanOn (s : State) : Host.Outcome State Fault Refusal :=
  match resumeScan s with
  | .done t => .next (if t.scPhase = .read then leaveRead t else t)
  | .stop t => .next t

/-- While `rst` is asserted every register has its reset value; the environment is not reset (70_reset_and_hazards.md
R265, R267). DESIGN CHOICE: `rst` itself stays as it is. R266 leaves it to the outside when `rst` is released, and no
step of the model releases it (assumption 32). -/
def resetBlock (s : State) : State :=
  State.initial s.cfg s.toEnvironment

/-- The instruction a presented value stands for. -/
def fetchInstr (s : State) (c : CallSlot) : Except DecodeError Instr := decode s.cfg c.format c.bytes

/-- Perform the presented operation alone; the slot is then empty (assumption 1). -/
def performSlot (c : CallSlot) (s : State) : Host.Outcome State Fault Refusal :=
  match fetchInstr s c with
  | .ok i => exec i { s with slot := none }
  | .error e => .refused (.badEncoding e)

/-- The slot's contents for a table word (assumption 2). -/
def slotOfWord (s : State) (nbits w : Nat) : CallSlot :=
  let bs := wordBytes s.cfg nbits w
  ⟨wordFormat s.cfg nbits bs, bs⟩

/-- The block ready to perform a presented operation: `rst` released, not halted, no operation left unfinished
(assumption 27). -/
def clearToPerform (s : State) : State :=
  let t := (s.modDrv .ch1 fun d => { d with busReq := .none }).modDrv .ch2 fun d => { d with busReq := .none }
  { t with rst := false, ksPhase := .idle, scPhase := if s.scPhase = .halt then .reset else s.scPhase }

end Sys2Proof.Machine
end

