-- ==== Sys2Proof/Machine/Step.lean ====
section
/-! DEFINITION. One step of the block. -/

namespace Sys2Proof.Machine

/-- One step: a build the spec refuses is refused (93_implementation_defined.md U14 to U17, U20); `rst` overrides
everything else (60_exceptions.md R244); in `SC_HALT` and in a ready-wait whose flag never sets nothing happens
(45_session_controller.md R222, 43_display_channel_driver.md R178); a waiting scan goes on (40_keypad_scanner.md
R130); a presented operation is performed (assumption 1); else the controller's walk goes on
(45_session_controller.md R206). -/
def step (s : State) : Host.Outcome State Fault Refusal :=
  if !s.cfg.wf then .refused .buildRefused
  else if s.rst then .next (resetBlock s)
  else if s.halted then .next s
  else if s.stalled then .next s
  else if s.scanning then scanOn s
  else
    match s.slot with
    | some c => performSlot c s
    | none => walk s

/-- `s` with the operation or wire value of a table word presented, so that the next step performs it
(assumptions 1, 2, 27). -/
def State.withFetchWord (s : State) (nbits w : Nat) : State :=
  { clearToPerform s with slot := some (slotOfWord s nbits w) }

end Sys2Proof.Machine
end

