-- ==== Sys2Proof/Safety.lean ====
section
/-! DEFINITION. The terms the claims use: what the environment must answer for an operation to complete, the events
each operation emits (40 to 45 of spec/), the state an operation on one channel leaves, and the invariants of the
machine (10_state.md R40, 20_memory.md R58). -/

namespace Sys2Proof.Machine

open Sys2Proof.Config

/-! ## What the environment answers -/

/-- The ready flag's answers after `n` ready-waits. -/
def Ready.after (r : Ready) : Nat → Ready
  | 0 => r
  | n + 1 => Ready.after r.pop.2 n

/-- How long `n` ready-waits last together. -/
def Ready.waited (r : Ready) : Nat → Nat
  | 0 => 0
  | n + 1 => r.pop.1.getD 0 + Ready.waited r.pop.2 n

/-- The next `n` ready-waits all end with the flag seen, within the bound. -/
def Ready.answers (bound : Option Nat) (r : Ready) : Nat → Bool
  | 0 => true
  | n + 1 =>
    match r.pop.1 with
    | some w => inTime bound w && Ready.answers bound r.pop.2 n
    | none => false

/-- The next `n` ready-waits of channel `c` all end with the flag seen (43_display_channel_driver.md R165). -/
def State.answers (s : State) (c : Chan) (n : Nat) : Bool := (s.line c).ready.answers s.cfg.busTimeout n

/-- Some row, strobed, shows the held keys (10_state.md R41). -/
def someKeySeen (p : Params) (keys : BitVec 16) : Prop :=
  ∃ r : BitVec 2, columns p keys (strobe p r) ≠ p.colIdle

/-- A listed sample is the first that is not idle: `c`, after `n` idle ones, `rest` left over. -/
def State.capturesListed (s : State) (n : Nat) (c : Nibble) (rest : List Nibble) : Prop :=
  s.cols = List.replicate n s.cfg.colIdle ++ c :: rest ∧ c ≠ s.cfg.colIdle

/-- All listed samples are idle, and of the rows strobed after them the first that shows a held key shows `c`, after
`n` idle samples altogether (10_state.md R41). -/
def State.capturesHeld (s : State) (n : Nat) (c : Nibble) : Prop :=
  ∃ j < 4, n = s.cols.length + j ∧ s.cols = List.replicate s.cols.length s.cfg.colIdle ∧
    (∀ k < j, columns s.cfg s.keys (strobe s.cfg (BitVec.ofNat 2 (s.cols.length + k))) = s.cfg.colIdle) ∧
    columns s.cfg s.keys (strobe s.cfg (BitVec.ofNat 2 n)) = c ∧ c ≠ s.cfg.colIdle

/-- A call of the scanner captures sample `c` after `n` idle ones, `rest` the listed samples it leaves: a listed
sample or the held keys. -/
def State.captures (s : State) (n : Nat) (c : Nibble) (rest : List Nibble) : Prop :=
  s.capturesListed n c rest ∨ (s.capturesHeld n c ∧ rest = [])

/-! ## The events of an operation -/

/-- One frame, its ready-wait, its delay (43_display_channel_driver.md R166). -/
def frameEvents (p : Params) (c : Chan) (n : Nibble) (en rs : Bool) : List Event :=
  [.busData c (frame p n en rs), .busReady c, .delay p.tStep]

/-- One nibble (43_display_channel_driver.md R166). -/
def nibbleEvents (p : Params) (c : Chan) (n : Nibble) (rs : Bool) : List Event :=
  frameEvents p c n true rs ++ frameEvents p c n false rs

/-- One byte: the four steps of 43_display_channel_driver.md R168. -/
def byteEvents (p : Params) (c : Chan) (rs : Bool) (b : Byte) : List Event :=
  nibbleEvents p c (highNibble b) rs ++ nibbleEvents p c (lowNibble b) rs

/-- DCD.CLEAR: clear, home, settle (43_display_channel_driver.md R172). -/
def clearEvents (p : Params) (c : Chan) : List Event :=
  byteEvents p c false p.cmdClear ++ byteEvents p c false p.cmdHome ++ [.delay p.tClearSettle]

/-- One raw pair of the initialisation sequence (43_display_channel_driver.md R171). -/
def pairEvents (p : Params) (c : Chan) (pair : Byte × Byte) : List Event :=
  [.busData c pair.1, .busReady c, .delay p.tStep, .busData c pair.2, .busReady c, .delay p.tStep]

/-- DCD.INITIALIZE (43_display_channel_driver.md R170). -/
def initEvents (p : Params) (c : Chan) : List Event :=
  [.busStart c, .busReady c, .busAddr c (busAddr p c), .busReady c] ++ p.initSeq.flatMap (pairEvents p c) ++
    clearEvents p c

/-- `n` idle strobes from row `r` on (40_keypad_scanner.md R134). -/
def idleScanEvents (p : Params) : Nat → BitVec 2 → List Event
  | 0, _ => []
  | n + 1, r => [.row (strobe p r), .delay p.tRowSettle, .sample p.colIdle] ++ idleScanEvents p n (r + 1)

/-- The pattern captured at row `r` with sample `c` (30_encoding.md R82). -/
def capturedPattern (p : Params) (r : BitVec 2) (c : Nibble) : Byte := keyPattern (strobe p r) c

/-- The slot of a captured pattern: the matching slot if it is a digit slot (40_keypad_scanner.md R127). -/
def digitSlot (p : Params) (pat : Byte) : Option Nat :=
  match findSlot pat p.keymap 0 with
  | some j => if (keymapRom p j).isDigit then some j else none
  | none => none

/-- The digit a captured pattern gives: that of its digit slot, else that of slot 0 (40_keypad_scanner.md R128). -/
def patternDigit (p : Params) (pat : Byte) : Nibble := (keymapRom p ((digitSlot p pat).getD 0)).digit

/-- The NoMatch event of a pattern that selects no digit (40_keypad_scanner.md R128). -/
def noMatchEvents (p : Params) (pat : Byte) : List Event := if (digitSlot p pat).isSome then [] else [.noMatch pat]

/-- KS.READDIGIT capturing sample `c` after `n` idle strobes (40_keypad_scanner.md R134). -/
def scanEvents (p : Params) (n : Nat) (c : Nibble) : List Event :=
  idleScanEvents p n 0 ++
    [.row (strobe p (BitVec.ofNat 2 n)), .delay p.tRowSettle, .sample c, .row (allInactive p)] ++
    noMatchEvents p (capturedPattern p (BitVec.ofNat 2 n) c)

/-- One mark of a play (44_led_morse_player.md R198). -/
def markEvents (p : Params) (dash : Bool) : List Event :=
  [.led true, .delay (holdTime p dash), .led false, .delay p.tDot]

/-- The marks of a Morse word in playing order, true for a dash (30_encoding.md R97). -/
def marksOf (w : Byte) : List Bool := (List.range (markCount w)).map (markAt w)

/-- LMP.PLAY (44_led_morse_player.md R198). -/
def playEvents (p : Params) (w : Byte) : List Event :=
  (marksOf w).flatMap (markEvents p) ++ [.delay p.tCharGap]

/-- The model time of a play of `d` dots and `h` dashes (44_led_morse_player.md R194). -/
def playTime (p : Params) (d h : Nat) : Nat := d * (p.tDot + p.tDot) + h * (p.tDash + p.tDot) + p.tCharGap

/-- The mark characters of a word on channel 2 (45_session_controller.md R217). -/
def markCharEvents (p : Params) (w : Byte) : List Event :=
  (marksOf w).flatMap fun m => byteEvents p .ch2 true (markChar m)

/-- The channel-1 positioning for a count (45_session_controller.md R214). -/
def positionEvents (p : Params) (cnt : BitVec 3) : List Event :=
  if cnt = 0 then clearEvents p .ch1 else byteEvents p .ch1 false (cursorCommand p (cnt.setWidth 2))

/-- The window-boundary reset (45_session_controller.md R210, R211). -/
def boundaryEvents (p : Params) (cnt : BitVec 3) : List Event :=
  if cnt = 4 then clearEvents p .ch1 ++ clearEvents p .ch2 ++ [.delay p.tWindowSettle] else []

/-- The count at the read: 0 after a window-boundary reset (45_session_controller.md R210). -/
def countAtRead (cnt : BitVec 3) : BitVec 3 := if cnt = 4 then 0 else cnt

/-- One iteration whose read captured sample `c` after `n` idle strobes, with raw digit `d`, encrypted digit `e` and
Morse word `w` (45_session_controller.md R209). -/
def iterationEvents (p : Params) (cnt : BitVec 3) (n : Nat) (c : Nibble) (d e : Nibble) (w : Byte) : List Event :=
  boundaryEvents p cnt ++ scanEvents p n c ++ positionEvents p (countAtRead cnt) ++
    byteEvents p .ch1 true (digitChar d) ++ clearEvents p .ch2 ++ byteEvents p .ch2 true (digitChar e) ++
    markCharEvents p w ++ playEvents p w

/-! ## The Morse code by its pattern (42_morse_encoder.md R151) -/

/-- The marks of a digit, true for a dash: the formula of 42_morse_encoder.md R151. -/
def morseMarks (d : Nat) : List Bool :=
  if d = 0 then List.replicate 5 true
  else if d ≤ 5 then List.replicate d false ++ List.replicate (5 - d) true
  else if d ≤ 9 then List.replicate (d - 5) true ++ List.replicate (10 - d) false
  else []

/-! ## The state an operation on one channel leaves -/

/-- `s` after an operation on channel `c` with `n` ready-waits: its events, its model time besides the waits, its
driver registers and its display view; everything else as before. -/
def channelAfter (c : Chan) (n : Nat) (evs : List Event) (ticks : Nat) (d : Driver → Driver) (v : View → View)
    (s : State) : State :=
  { ((s.modDrv c d).modLine c fun l => { l with ready := l.ready.after n, view := v l.view }) with
    events := s.events ++ evs, time := s.time + ticks + (s.line c).ready.waited n }

/-- The delay port after a sleep of `t`. -/
def sleptLast (t : Nat) (s : State) : State := { s with dlyReq := false, dlyLen := t }

/-- The registers of a driver after a byte transfer: `d_byte`, `d_rs`, the request over, the last frame on
`bus_byte`. -/
def transferred (p : Params) (rs : Bool) (b : Byte) (d : Driver) : Driver :=
  { d with byte := b, rs := rs, step := 0, phase := .idle, busReq := .none,
           busByte := frame p (lowNibble b) false rs }

/-- `s` with the registers and the environment of a channel replaced. -/
def withChannel (c : Chan) (d : Driver) (l : Line) (s : State) : State :=
  (s.modDrv c fun _ => d).modLine c fun _ => l

/-- A result with a function applied to its next state. -/
def mapNext (f : State → State) (r : Host.Outcome State Fault Refusal) : Host.Outcome State Fault Refusal :=
  match r with
  | .next t => .next (f t)
  | .fault e => .fault e
  | .refused e => .refused e

/-- `f` after an operation, `g` where `rst` cut it off. -/
def unlessReset (f g : State → State) (t : State) : State := if t.rst then g t else f t

/-! ## Invariants -/

/-- `rst` is released, the block is not halted, no operation is unfinished: the next step performs something new. -/
def State.open (s : State) : Prop := s.cfg.wf = true ∧ s.rst = false ∧ s.free = true

/-- The controller is between the read of a digit and the end of its iteration, the read included. -/
def ScPhase.inDigit : ScPhase → Bool
  | .read | .cipher | .ch1pos | .ch1wr | .ch2clr | .ch2dig | .ch2mrk | .play | .adv => true
  | .reset | .init1 | .init2 | .check | .wclr1 | .wclr2 | .wsettle | .off1 | .off2 | .halt => false

/-- The position has been counted and `rem` not yet (45_session_controller.md R213, R218). -/
def ScPhase.counted : ScPhase → Bool
  | .ch1pos | .ch1wr | .ch2clr | .ch2dig | .ch2mrk | .play | .adv => true
  | .reset | .init1 | .init2 | .check | .wclr1 | .wclr2 | .wsettle | .read | .cipher | .off1 | .off2 | .halt => false

/-- The controller is inside an iteration (45_session_controller.md R206). -/
def ScPhase.inIteration : ScPhase → Bool
  | .wclr1 | .wclr2 | .wsettle | .read | .cipher | .ch1pos | .ch1wr | .ch2clr | .ch2dig | .ch2mrk | .play
  | .adv => true
  | .reset | .init1 | .init2 | .check | .off1 | .off2 | .halt => false

/-- A result is a digit in [0,9] or no digit. -/
def Ret.inRange : Ret → Bool
  | .digit d => decide (d.toNat ≤ 9)
  | .none | .word _ => true

/-- The invariants of 10_state.md R40, R39, R26 and R32 that every step of the machine keeps, whatever it performs and
whenever `rst` comes: the digits in range, the counters within their widths, the window no longer than 4 and never full
at a read, the LED off and no sleep, play or transfer unfinished between steps (R32, R265, R267), the rows inactive
outside a scan, the display positions in canonical form. -/
structure State.Sound (s : State) : Prop where
  digRange : s.dig.toNat ≤ 9
  encRange : s.enc.toNat ≤ 9
  retRange : s.ret.inRange = true
  posRange : s.pos < 2 ^ s.cfg.posWidth
  remRange : s.rem < 2 ^ s.cfg.posWidth
  cntRange : s.cnt.toNat ≤ 4
  cntAtRead : s.scPhase.inDigit = true → s.cnt.toNat ≤ 3
  windowLength : s.window.length = s.cnt.toNat
  ledOff : s.led = false
  playerIdle : s.lmpState = .idle
  noSleep : s.dlyReq = false
  channelsIdle : ∀ c, (s.drv c).busReq = .none → (s.drv c).phase = .idle
  rowsReleased : s.ksPhase = .idle → s.kpRow = allInactive s.cfg
  oneRequest : s.drv1.busReq = .none ∨ s.drv2.busReq = .none
  scanAlone : s.ksPhase ≠ .idle → s.stalled = false
  view1Canonical : s.line1.view.text.wf = true
  view2Canonical : s.line2.view.text.wf = true

/-- The phase of a run and the registers that go with it, in a run from reset with nothing presented and no `rst` in it:
what has been initialised, how many digits have been accepted (10_state.md R26, R40; 45_session_controller.md R207,
R210, R213, R218). -/
structure State.InRun (s : State) : Prop where
  build : s.cfg.wf = true
  released : s.rst = false
  undisturbed : s.rstIn = none
  nothingPresented : s.slot = none
  scanOnlyInRead : s.scanning = true → s.scPhase = .read
  fresh1 : s.scPhase = .reset ∨ (s.scPhase = .init1 ∧ s.stalled = false) →
    s.drv1.inited = false ∧ s.line1.started = false ∧ s.drv2.inited = false ∧ s.line2.started = false
  fresh2 : s.scPhase = .init2 ∧ s.stalled = false →
    s.drv1.inited = true ∧ s.drv2.inited = false ∧ s.line2.started = false
  initialised : s.scPhase ≠ .reset → s.scPhase ≠ .init1 → s.scPhase ≠ .init2 → s.scPhase ≠ .halt →
    s.drv1.inited = true ∧ s.drv2.inited = true
  wordPlayable : s.scPhase.counted = true → markCount s.mw = 5
  total : s.scPhase ≠ .halt →
    s.pos + s.rem = s.cfg.iterCount + (if s.scPhase.counted then 1 else 0)
  remaining : s.scPhase.inIteration = true → s.rem ≠ 0
  cntBound : s.cnt.toNat ≤ if s.scPhase.inDigit then 3 else 4
  cntAtBoundary : s.scPhase = .wclr1 ∨ s.scPhase = .wclr2 ∨ s.scPhase = .wsettle → s.cnt = 4
  windowPosition : s.scPhase ≠ .halt →
    s.pos % 4 = (s.cnt.toNat + (if s.scPhase.counted then 1 else 0)) % 4
  ended : s.scPhase = .off1 ∨ s.scPhase = .off2 ∨ s.stDone = true →
    s.rem = 0 ∧ s.pos = s.cfg.iterCount
  doneHalts : s.stDone = true → s.scPhase = .halt

/-- The requests of channel `c` in a trace, in order. -/
def busRequests (c : Chan) : List Event → List Event
  | [] => []
  | e :: es =>
    match e with
    | .busStart c' | .busAddr c' _ | .busData c' _ => if c' = c then e :: busRequests c es else busRequests c es
    | .row _ | .sample _ | .delay _ | .busReady _ | .led _ | .noMatch _ | .busTimeout _ | .done => busRequests c es

/-- Only data requests. -/
def dataOnly : List Event → Bool
  | [] => true
  | .busData _ _ :: es => dataOnly es
  | _ :: _ => false

/-- At most one start, then one address, the channel's own, then only data (20_memory.md R58). -/
def trafficShape (p : Params) (c : Chan) : List Event → Bool
  | [] => true
  | [e] => e == .busStart c
  | e :: f :: es => e == .busStart c && f == .busAddr c (busAddr p c) && dataOnly es

/-- The bus traffic of channel `c` has the shape of 20_memory.md R58 and agrees with what has been started and
initialised. -/
def State.TrafficOk (s : State) (c : Chan) : Prop :=
  trafficShape s.cfg c (busRequests c s.events) = true ∧
    ((s.line c).started = false → busRequests c s.events = [] ∧ (s.drv c).inited = false) ∧
    ((s.drv c).inited = true → 2 ≤ (busRequests c s.events).length)

/-- The length of all sleeps of a trace together (00_scope.md R17). -/
def sleepTime : List Event → Nat
  | [] => 0
  | .delay t :: es => t + sleepTime es
  | _ :: es => sleepTime es

/-! ## Requests and answers in a trace -/

/-- The channel of a bus request. -/
def requestChan : Event → Option Chan
  | .busStart c | .busAddr c _ | .busData c _ => some c
  | .row _ | .sample _ | .delay _ | .busReady _ | .led _ | .noMatch _ | .busTimeout _ | .done => none

/-- Whether an event ends the wait of a request on channel `c`: the flag was seen, or the wait was given up. -/
def endsWait (c : Chan) (e : Event) : Bool := e == .busReady c || e == .busTimeout c

/-- Whether the event after `e`, if there is one, is what must follow it: after a request, the end of its wait. -/
def answeredBy (e : Event) (es : List Event) : Bool :=
  match requestChan e, es with
  | some c, f :: _ => endsWait c f
  | some _, [] => true
  | none, _ => true

/-- Every request of a trace but the last event is followed at once by the end of its ready-wait (20_memory.md R66,
70_reset_and_hazards.md R276). -/
def answeredTrace : List Event → Bool
  | [] => true
  | e :: es => answeredBy e es && answeredTrace es

/-- The last event of the trace is a request whose wait has not ended. -/
def requestOpen (es : List Event) : Bool :=
  match es.getLast? with
  | some e => (requestChan e).isSome
  | none => false

/-- Every request but one that the block still waits on has been answered; or `rst` is asserted, and the trace ends
(70_reset_and_hazards.md R267). -/
structure State.Answered (s : State) : Prop where
  shape : answeredTrace s.events = true
  noneOpen : s.rst = false → s.stalled = false → requestOpen s.events = false

/-! ## The phase walk -/

/-- The phase that follows the current one (45_session_controller.md R206). -/
def State.nextPhase (s : State) : ScPhase :=
  match s.scPhase with
  | .reset => .init1
  | .init1 => .init2
  | .init2 => .check
  | .check => if s.rem = 0 then .off1 else if s.cnt = 4 then .wclr1 else .read
  | .wclr1 => .wclr2
  | .wclr2 => .wsettle
  | .wsettle => .read
  | .read => .cipher
  | .cipher => .ch1pos
  | .ch1pos => .ch1wr
  | .ch1wr => .ch2clr
  | .ch2clr => .ch2dig
  | .ch2dig => .ch2mrk
  | .ch2mrk => .play
  | .play => .adv
  | .adv => .check
  | .off1 => .off2
  | .off2 => .halt
  | .halt => .halt

/-! ## The state an operation leaves, in closed form -/

/-- A byte transfer on channel `c` that leaves the cursor register at `k` and changes the view by `v`. -/
def afterTransfer (c : Chan) (rs : Bool) (b : Byte) (k : BitVec 3 → BitVec 3) (v : View → View) (s : State) : State :=
  sleptLast s.cfg.tStep (channelAfter c 4 (byteEvents s.cfg c rs b) (4 * s.cfg.tStep)
    (fun d => { transferred s.cfg rs b d with cur := k d.cur }) v s)

/-- An empty display with its cursor at 0, on or off as before. -/
def View.cleared (v : View) : View := { v with text := [], vcur := 0 }

/-- The state DCD.CLEAR leaves (43_display_channel_driver.md R172, R179). -/
def afterClear (c : Chan) (s : State) : State :=
  sleptLast s.cfg.tClearSettle (channelAfter c 8 (clearEvents s.cfg c) (8 * s.cfg.tStep + s.cfg.tClearSettle)
    (fun d => { transferred s.cfg false s.cfg.cmdHome d with cur := 0 }) View.cleared s)

/-- The state DCD.INITIALIZE leaves (43_display_channel_driver.md R170, R179). -/
def afterInitialise (c : Chan) (s : State) : State :=
  sleptLast s.cfg.tClearSettle ((channelAfter c 34 (initEvents s.cfg c) (32 * s.cfg.tStep + s.cfg.tClearSettle)
    (fun d => { transferred s.cfg false s.cfg.cmdHome d with cur := 0, seq := 11, inited := true })
    (fun v => { v.cleared with on := true }) s).modLine c fun l => { l with started := true })

/-- The dots of a word. -/
def dots (w : Byte) : Nat := (marksOf w).count false

/-- The dashes of a word. -/
def dashes (w : Byte) : Nat := (marksOf w).count true

/-- The state LMP.PLAY of a word with at least one mark leaves (44_led_morse_player.md R191, R194, R198). -/
def afterPlay (w : Byte) (s : State) : State :=
  { s with lmpState := .idle, lmpIdx := BitVec.ofNat 3 (markCount w - 1), led := false, dlyReq := false,
           dlyLen := s.cfg.tCharGap, events := s.events ++ playEvents s.cfg w,
           time := s.time + playTime s.cfg (dots w) (dashes w) }

/-- The state a captured pattern leaves the scanner and its caller in (40_keypad_scanner.md R127, R128). -/
def afterLookup (pat : Byte) (s : State) : State :=
  { s with ksPat := pat, ksSlot := BitVec.ofNat 4 ((findSlot pat s.cfg.keymap 0).getD 0), ksPhase := .idle,
           ret := .digit (patternDigit s.cfg pat), stNomatch := s.stNomatch || (digitSlot s.cfg pat).isNone,
           events := s.events ++ noMatchEvents s.cfg pat }

/-- The state KS.READDIGIT leaves when it captures sample `c` after `n` idle strobes, `rest` the samples not taken
(40_keypad_scanner.md R121, R134). -/
def afterScan (n : Nat) (c : Nibble) (rest : List Nibble) (s : State) : State :=
  let pat := capturedPattern s.cfg (BitVec.ofNat 2 n) c
  { s with ksRow := BitVec.ofNat 2 n, ksPat := pat,
           ksSlot := BitVec.ofNat 4 ((findSlot pat s.cfg.keymap 0).getD 0), ksPhase := .idle,
           kpRow := allInactive s.cfg, cols := rest, ret := .digit (patternDigit s.cfg pat),
           stNomatch := s.stNomatch || (digitSlot s.cfg pat).isNone, dlyReq := false, dlyLen := s.cfg.tRowSettle,
           events := s.events ++ scanEvents s.cfg n c, time := s.time + (n + 1) * s.cfg.tRowSettle }

/-- The ready-waits of channel 1 in an iteration: a clear at a window boundary, the positioning, the digit
(45_session_controller.md R209). -/
def iterationWaits1 (cnt : BitVec 3) : Nat := (if cnt = 4 then 8 else 0) + (if countAtRead cnt = 0 then 8 else 4) + 4

/-- The ready-waits of channel 2 in an iteration: a clear at a window boundary, the clear, six characters
(45_session_controller.md R209). -/
def iterationWaits2 (cnt : BitVec 3) : Nat := (if cnt = 4 then 8 else 0) + 32

/-- The ready-waits of channel 1 in `n` iterations from count `cnt` on (45_session_controller.md R209, R218). -/
def iterationsWaits1 : Nat → BitVec 3 → Nat
  | 0, _ => 0
  | n + 1, cnt => iterationWaits1 cnt + iterationsWaits1 n (countAtRead cnt + 1)

/-- The ready-waits of channel 2 in `n` iterations from count `cnt` on (45_session_controller.md R209, R218). -/
def iterationsWaits2 : Nat → BitVec 3 → Nat
  | 0, _ => 0
  | n + 1, cnt => iterationWaits2 cnt + iterationsWaits2 n (countAtRead cnt + 1)

/-- The ready-waits of channel 1 in a run of `n` iterations from count `cnt` on: DCD.INITIALIZE, the iterations,
display-off (45_session_controller.md R205). -/
def runWaits1 (n : Nat) (cnt : BitVec 3) : Nat := 34 + iterationsWaits1 n cnt + 4

/-- The ready-waits of channel 2 in a run of `n` iterations from count `cnt` on (45_session_controller.md R205). -/
def runWaits2 (n : Nat) (cnt : BitVec 3) : Nat := 34 + iterationsWaits2 n cnt + 4

/-- The display time of an iteration besides the waits (70_reset_and_hazards.md R284). -/
def displayTicks (p : Params) (cnt : BitVec 3) : Nat :=
  if cnt = 4 then 60 * p.tStep + 4 * p.tClearSettle + p.tWindowSettle
  else if cnt = 0 then 44 * p.tStep + 2 * p.tClearSettle
  else 40 * p.tStep + p.tClearSettle

/-- Display 1 after an iteration (45_session_controller.md R214). -/
def rawView (k : BitVec 3) (d : Nibble) (v : View) : View :=
  { v with text := if k = 0 then [(0, digitChar d)] else v.text.write k.toNat (digitChar d), vcur := k.toNat + 1 }

/-- Display 2 after an iteration: the encrypted digit and its five marks (45_session_controller.md R215). -/
def encView (e : Nibble) (v : View) : View :=
  let w := morseRom e
  { v with text := [(0, digitChar e), (1, markChar (markAt w 0)), (2, markChar (markAt w 1)),
                    (3, markChar (markAt w 2)), (4, markChar (markAt w 3)), (5, markChar (markAt w 4))],
           vcur := 6 }

/-- The state SC.ITERATE leaves when its read captures sample `c` after `n` idle strobes (45_session_controller.md
R209 to R218). -/
def afterIteration (n : Nat) (c : Nibble) (rest : List Nibble) (s : State) : State :=
  let p := s.cfg
  let pat := capturedPattern p (BitVec.ofNat 2 n) c
  let d := patternDigit p pat
  let e := encryptDigit p d s.pos
  let w := morseRom e
  let k := countAtRead s.cnt
  { s with
    dig := d, enc := e, mw := w, cnt := k + 1, pos := (s.pos + 1) % 2 ^ p.posWidth, rem := s.rem - 1,
    ksRow := BitVec.ofNat 2 n, ksPat := pat, ksSlot := BitVec.ofNat 4 ((findSlot pat p.keymap 0).getD 0),
    drv1 := { transferred p true (digitChar d) s.drv1 with cur := k + 1 },
    drv2 := { transferred p true (markChar (markAt w 4)) s.drv2 with cur := 6 },
    scPhase := .check, ksPhase := .idle, lmpState := .idle, lmpIdx := 4, scMi := 4,
    stNomatch := s.stNomatch || (digitSlot p pat).isNone, led := false, kpRow := allInactive p,
    dlyReq := false, dlyLen := p.tCharGap,
    window := (if s.cnt = 4 then [] else s.window) ++ [d], cols := rest,
    line1 := { s.line1 with ready := s.line1.ready.after (iterationWaits1 s.cnt),
                            view := rawView k d (if s.cnt = 4 then s.line1.view.cleared else s.line1.view) },
    line2 := { s.line2 with ready := s.line2.ready.after (iterationWaits2 s.cnt), view := encView e s.line2.view },
    events := s.events ++ iterationEvents p s.cnt n c d e w,
    time := s.time + (n + 1) * p.tRowSettle + displayTicks p s.cnt + playTime p (dots w) (dashes w) +
      s.line1.ready.waited (iterationWaits1 s.cnt) + s.line2.ready.waited (iterationWaits2 s.cnt),
    ret := .word w }

/-! ## What no rule reads -/

/-- A view with nothing in it. -/
def View.blank : View := ⟨[], 0, false⟩

/-- `s` with the ghost window, the display views and the cursor registers forgotten (10_state.md R34, R39, R44). -/
def eraseGhosts (s : State) : State :=
  { s with window := [],
           drv1 := { s.drv1 with cur := 0 }, drv2 := { s.drv2 with cur := 0 },
           line1 := { s.line1 with view := View.blank }, line2 := { s.line2 with view := View.blank } }

/-- `s` with the flags set that are set in `x`, `y`, `z` (10_state.md R31). -/
def orFlags (x y z : Bool) (s : State) : State :=
  { s with stNomatch := x || s.stNomatch, stBusTimeout := y || s.stBusTimeout, stDone := z || s.stDone }

/-- The channel a display operation acts on; `none` for an operation of another component or of the controller. -/
def displayChan : Instr → Option Chan
  | .dcdInitializeCh1 | .dcdSendbyteCh1 _ | .dcdSendnibbleCh1 _ _ | .dcdWritecommandCh1 _ | .dcdWritecharCh1 _
  | .dcdClearCh1 | .dcdMovecursorCh1 _ | .dcdDisplayoffCh1 => some .ch1
  | .dcdInitializeCh2 | .dcdSendbyteCh2 _ | .dcdSendnibbleCh2 _ _ | .dcdWritecommandCh2 _ | .dcdWritecharCh2 _
  | .dcdClearCh2 | .dcdMovecursorCh2 _ | .dcdDisplayoffCh2 => some .ch2
  | .dcClear c | .dcHome c | .dcSetcursor c _ | .dcDisplayoff c | .dcWritechar c _ => some c
  | .bfCommand c _ _ | .bfCharacter c _ _ => some c
  | .ksReaddigit | .ceEncrypt _ _ | .meEncode _ | .lmpPlay _ | .scStart | .scIterate | .scTerminate | .scRun
  | .mwDigit0 | .mwDigit1 | .mwDigit2 | .mwDigit3 | .mwDigit4 | .mwDigit5 | .mwDigit6 | .mwDigit7 | .mwDigit8
  | .mwDigit9 | .mwEmpty
  | .kpSlot0Key0 | .kpSlot1Key1 | .kpSlot2Key2 | .kpSlot3Key3 | .kpSlot4Key4 | .kpSlot5Key5 | .kpSlot6Key6
  | .kpSlot7Key7 | .kpSlot8Key8 | .kpSlot9Key9 | .kpSlot10KeyA | .kpSlot11KeyB | .kpSlot12KeyC | .kpSlot13KeyD
  | .kpSlot14KeyStar | .kpSlot15KeyHash => none

/-- The events of an operation on one channel whose waits are all answered (43_display_channel_driver.md R179); none
for an operation of another component or of the controller. -/
def displayEvents (p : Params) : Instr → List Event
  | .dcdInitializeCh1 => initEvents p .ch1
  | .dcdInitializeCh2 => initEvents p .ch2
  | .dcdSendbyteCh1 b => [.busData .ch1 b, .busReady .ch1]
  | .dcdSendbyteCh2 b => [.busData .ch2 b, .busReady .ch2]
  | .dcdSendnibbleCh1 n rs => nibbleEvents p .ch1 n rs
  | .dcdSendnibbleCh2 n rs => nibbleEvents p .ch2 n rs
  | .dcdWritecommandCh1 b => byteEvents p .ch1 false b
  | .dcdWritecommandCh2 b => byteEvents p .ch2 false b
  | .dcdWritecharCh1 b => byteEvents p .ch1 true b
  | .dcdWritecharCh2 b => byteEvents p .ch2 true b
  | .dcdClearCh1 => clearEvents p .ch1
  | .dcdClearCh2 => clearEvents p .ch2
  | .dcdMovecursorCh1 o => byteEvents p .ch1 false (cursorCommand p o)
  | .dcdMovecursorCh2 o => byteEvents p .ch2 false (cursorCommand p o)
  | .dcdDisplayoffCh1 => byteEvents p .ch1 false p.cmdDisplayOff
  | .dcdDisplayoffCh2 => byteEvents p .ch2 false p.cmdDisplayOff
  | .dcClear c => byteEvents p c false p.cmdClear
  | .dcHome c => byteEvents p c false p.cmdHome
  | .dcSetcursor c o => byteEvents p c false (cursorCommand p o)
  | .dcDisplayoff c => byteEvents p c false p.cmdDisplayOff
  | .dcWritechar c b => byteEvents p c true b
  | .bfCommand c n en => frameEvents p c n en false
  | .bfCharacter c n en => frameEvents p c n en true
  | .ksReaddigit | .ceEncrypt _ _ | .meEncode _ | .lmpPlay _ | .scStart | .scIterate | .scTerminate | .scRun
  | .mwDigit0 | .mwDigit1 | .mwDigit2 | .mwDigit3 | .mwDigit4 | .mwDigit5 | .mwDigit6 | .mwDigit7 | .mwDigit8
  | .mwDigit9 | .mwEmpty
  | .kpSlot0Key0 | .kpSlot1Key1 | .kpSlot2Key2 | .kpSlot3Key3 | .kpSlot4Key4 | .kpSlot5Key5 | .kpSlot6Key6
  | .kpSlot7Key7 | .kpSlot8Key8 | .kpSlot9Key9 | .kpSlot10KeyA | .kpSlot11KeyB | .kpSlot12KeyC | .kpSlot13KeyD
  | .kpSlot14KeyStar | .kpSlot15KeyHash => []

/-- The number of bus requests of a trace, which is the number of ready-waits. -/
def requestCount (es : List Event) : Nat := (es.filter fun e => (requestChan e).isSome).length

/-- The events up to the request after `k` others, that request the last. -/
def upToRequest : Nat → List Event → List Event
  | _, [] => []
  | k, e :: es =>
    if (requestChan e).isSome then
      match k with
      | 0 => [e]
      | k + 1 => e :: upToRequest k es
    else e :: upToRequest k es

/-- Channel `c` is as the operation needs it: fresh for DCD.INITIALIZE, initialised for any other
(43_display_channel_driver.md R163, R170). -/
def channelFits (i : Instr) (c : Chan) (s : State) : Prop :=
  if i = .dcdInitializeCh1 ∨ i = .dcdInitializeCh2 then (s.drv c).inited = false ∧ (s.line c).started = false
  else (s.drv c).inited = true

/-- The other channel. -/
def otherChan : Chan → Chan
  | .ch1 => .ch2
  | .ch2 => .ch1

/-- The constructor of each keypad slot (30_encoding.md R84). -/
def slotInstrs : List (Nat × Instr) :=
  [(0, .kpSlot0Key0), (1, .kpSlot1Key1), (2, .kpSlot2Key2), (3, .kpSlot3Key3), (4, .kpSlot4Key4), (5, .kpSlot5Key5),
   (6, .kpSlot6Key6), (7, .kpSlot7Key7), (8, .kpSlot8Key8), (9, .kpSlot9Key9), (10, .kpSlot10KeyA),
   (11, .kpSlot11KeyB), (12, .kpSlot12KeyC), (13, .kpSlot13KeyD), (14, .kpSlot14KeyStar), (15, .kpSlot15KeyHash)]

end Sys2Proof.Machine
end

