-- ==== Sys2Proof/Certificates/Slice0/Obligations.lean ====
section
/-! DEFINITION. The statements for the provers. Each docstring names the rule or section of spec/ a statement
formalises. Where a clause is the model's choice the docstring names the log entry. The hypothesis `s.rstIn = none` says
that `rst` is not asserted inside the operation; `Obligations.ResetInsideOperation` says, for every operation, what
happens when it is. -/

open Sys2Proof Sys2Proof.Config Sys2Proof.Machine

/-! ## Reset -/

/-- 10_state.md R45: the value of every piece of state after reset, and the phase that the first step enters. `kp_row` is
all lines inactive. -/
def Obligations.ResetValues : Prop :=
  let s := State.reset
  s.dig = 0 ∧ s.enc = 0 ∧ s.mw = 0 ∧ s.cnt = 0 ∧ s.pos = 0 ∧ s.rem = 100 ∧
    s.ksRow = 0 ∧ s.ksPat = 0 ∧ s.ksSlot = 0 ∧
    (∀ c, (s.drv c).byte = 0 ∧ (s.drv c).rs = false ∧ (s.drv c).step = 0 ∧ (s.drv c).seq = 0 ∧
      (s.drv c).inited = false ∧ (s.drv c).cur = 0 ∧ (s.drv c).phase = .idle ∧ (s.drv c).busReq = .none) ∧
    s.scPhase = .reset ∧ s.ksPhase = .idle ∧ s.lmpState = .idle ∧ s.lmpIdx = 0 ∧ s.scMi = 0 ∧
    s.led = false ∧ s.kpRow = 0b1111 ∧ s.stDone = false ∧ s.stNomatch = false ∧ s.stBusTimeout = false ∧
    s.window = [] ∧ ∃ t, step s = .next t ∧ t.scPhase = .init1

/-- The invariants stated below hold at the reset state; `State.InRun` at the reset state of every build the spec admits,
in every environment whose buses have not been started (70_reset_and_hazards.md R266, R268). -/
def Obligations.ResetMeetsInvariants : Prop :=
  State.reset.Sound ∧ State.reset.InRun ∧ (∀ c, State.reset.TrafficOk c) ∧ State.reset.Answered ∧
    ∀ (p : Params) (env : Environment), p.wf = true → env.rst = false → env.rstIn = none →
      env.line1.started = false → env.line2.started = false → (State.initial p env).InRun

/-- 70_reset_and_hazards.md R265, R267, 60_exceptions.md R244: while `rst` is asserted a step leaves every register at
its reset value, whatever the block was doing, and emits nothing; the environment is not reset. That the trace starts
anew and the parameters stay, that `bus_byte` and `dly_len` are 0, that no result stands and no operation is
presented, is the model's (log 1, 4, 12, 14, 24, 25), and so is that `rst` stays asserted (log 32). -/
def Obligations.RstOverridesEverything : Prop :=
  ∀ s : State, s.cfg.wf = true → s.rst = true → step s = .next (State.initial s.cfg s.toEnvironment)

/-- 70_reset_and_hazards.md R265, R267, 60_exceptions.md R244, for every operation: when `rst` is asserted inside it,
after more than `k` events, it is abandoned there, whatever sleep, wait or mark was in progress: at once every register
has its reset value, and the events after are not emitted; the next step begins a new trace in the environment as it
then stands. An operation that is over sooner is not touched. That `rst` comes right after an event, counted in
`rstIn`, is the model's (log 26); what of the model's own fields stands then is by log 12, 14, 25,
and that `rst` stays asserted by log 32. -/
def Obligations.ResetInsideOperation : Prop :=
  ∀ (s t u : State) (i : Instr) (k : Nat), s.cfg.wf = true → s.rst = false →
    exec i { s with rstIn := none } = .next u → exec i { s with rstIn := some k } = .next t →
      if u.events.length ≤ s.events.length + k then
        t = { u with rstIn := some (s.events.length + k - u.events.length) }
      else
        t.toBlock = .reset s.cfg ∧ t.rst = true ∧ t.events = u.events.take (s.events.length + k + 1) ∧
          step t = .next (State.initial s.cfg t.toEnvironment)

/-! ## Encoding -/

/-- A few words, written from 30_encoding.md R101, R92, R98, R91, R84, decode to what they stand for. The operand bytes
are by log 3. -/
def Obligations.DecodedWords : Prop :=
  decode default .op [0x00] = .ok .ksReaddigit ∧
    decode default .op [0x08, 0x07, 0x05, 0, 0, 0] = .ok (.ceEncrypt 7 5) ∧
    decode default .op [0x10, 0x05] = .ok (.meEncode 5) ∧
    decode default .op [0x5D] = .ok .dcdClearCh2 ∧
    decode default .op [0x1A, 0x18] = .ok (.dcdSendnibbleCh1 8 true) ∧
    decode default .op [0x20, 0xA0] = .ok (.lmpPlay 0xA0) ∧
    decode default .op [0x2B] = .ok .scRun ∧
    decode default .dc [0x82, 0x00, 0x00] = .ok (.dcSetcursor .ch1 2) ∧
    decode default .dc [0x35, 0x01, 0x01] = .ok (.dcWritechar .ch2 0x35) ∧
    decode default .mw [0xA0] = .ok .mwDigit5 ∧
    decode default .bf [0x8C, 0x00] = .ok (.bfCommand .ch1 8 true) ∧
    decode default .kp [0xBE] = .ok .kpSlot7Key7

/-- Decoding what the encoder wrote gives the instruction back, for every instruction, every operand of the build's
widths, every build the spec admits and whatever bytes follow (30_encoding.md sections 3.2 to 3.7; operand bytes by
log 3, the width of a position by log 6). -/
def Obligations.DecodeOfEncode : Prop :=
  ∀ (p : Params) (i : Instr) (rest : List Byte), p.wf = true → i.operandsFit p = true →
    decode p i.format (encode p i ++ rest) = .ok i

/-- Whatever the decoder reads in a format is an instruction of that format with operands of the build's widths, and
the bytes it read are the encoding of that instruction: no value has two meanings within a format (30_encoding.md R80,
R103). The operand bytes, and the channel byte of a display command or frame, are by log 3, the width of a position by
log 6. -/
def Obligations.EncodeOfDecode : Prop :=
  ∀ (p : Params) (f : Format) (bs : List Byte) (i : Instr), p.wf = true → decode p f bs = .ok i →
    i.format = f ∧ i.operandsFit p = true ∧ ∃ rest, bs = encode p i ++ rest

/-- 30_encoding.md R101, R103: exactly the 24 identifiers of the operations are decoded in format OP. -/
def Obligations.OperationIdentifiers : Prop :=
  ∀ (p : Params) (b : Byte),
    (∃ args i, decode p .op (b :: args) = .ok i) ↔
      b ∈ [0x00#8, 0x08#8, 0x10#8, 0x18#8, 0x19#8, 0x1A#8, 0x1B#8, 0x1C#8, 0x1D#8, 0x1E#8, 0x1F#8, 0x20#8,
           0x28#8, 0x29#8, 0x2A#8, 0x2B#8, 0x58#8, 0x59#8, 0x5A#8, 0x5B#8, 0x5C#8, 0x5D#8, 0x5E#8, 0x5F#8]

/-! ## The step -/

/-- A step performs the presented operation and nothing else: when the block is open and the bytes presented in a format
decode to an instruction, the step is that instruction at that state, the slot emptied (log 1). -/
def Obligations.StepRunsPresented : Prop :=
  ∀ (s : State) (c : CallSlot) (i : Instr), s.open → s.slot = some c → decode s.cfg c.format c.bytes = .ok i →
    step s = exec i { s with slot := none }

/-- A table word placed with `withFetchWord` is the very next thing performed, from any state of a default build (log 1,
2, 27). -/
def Obligations.WithFetchWordRuns : Prop :=
  ∀ (s : State) (nbits w : Nat) (i : Instr), s.cfg = default → decodeTableWord nbits w = some i →
    step (s.withFetchWord nbits w) = exec i { clearToPerform s with slot := none }

/-- A build that breaks a constraint of 00_scope.md R11, 20_memory.md R55, R56, 30_encoding.md R92, R93
(93_implementation_defined.md U14 to U17, U20) is refused; and so is a presented value that is no operation or wire
value (30_encoding.md R103, U18). That a value is presented in the call slot is log 1, the errors about operand bytes
log 3; that a Morse word with `len` 0 to 5 outside the table, a frame whose bit 3 is not `BL` and a pattern of no slot
are such values is the model's (log 33). -/
def Obligations.StepRefuses : Prop :=
  (∀ s : State, s.cfg.wf = false → step s = .refused .buildRefused) ∧
    ∀ (s : State) (c : CallSlot) (e : DecodeError), s.open → s.slot = some c →
      decode s.cfg c.format c.bytes = .error e → step s = .refused (.badEncoding e)

/-! ## The keypad scanner -/

/-- 40_keypad_scanner.md R134: the events of a call that captures on its `n + 1`-th strobe, its result and its time;
every register the scanner writes, and nothing else changed (R121, R127, R128, R133). What the ports `bus_byte`,
`dly_req`, `dly_len` hold afterwards is the model's (log 24). The field `ret` that holds the result is the model's
(log 14). -/
def Obligations.ReadDigitCaptures : Prop :=
  ∀ (s : State) (n : Nat) (c : Nibble) (rest : List Nibble),
    s.rstIn = none → s.capturesListed n c rest → exec .ksReaddigit s = .next (afterScan n c rest s)

/-- A key held down is captured at the first row that shows it, in the first pass after the listed samples, all idle,
however many they are (40_keypad_scanner.md R125, R126, R132; 10_state.md R41). That the held keys decide the samples
after the listed ones is the model's (log 7). What the ports `bus_byte`, `dly_req`, `dly_len` hold afterwards is the
model's (log 24). The field `ret` that holds the result is the model's (log 14). -/
def Obligations.HeldKeyIsCaptured : Prop :=
  ∀ (s : State) (n : Nat) (c : Nibble), s.rstIn = none → s.capturesHeld n c →
    exec .ksReaddigit s = .next (afterScan n c [] s)

/-- Where no key is seen the call has not returned: the scanner stands between two strobes, no flag set, no result
(40_keypad_scanner.md R130). That one step ends after one pass of the held keys is the model's (log 10). What the
ports `bus_byte`, `dly_req`, `dly_len` hold afterwards is the model's (log 24). -/
def Obligations.ReadDigitWaits : Prop :=
  ∀ (s : State) (n : Nat), s.rstIn = none → s.cols = List.replicate n s.cfg.colIdle → ¬ someKeySeen s.cfg s.keys →
    exec .ksReaddigit s = .next
      { s with ksRow := BitVec.ofNat 2 n, ksPhase := .drive, kpRow := strobe s.cfg (BitVec.ofNat 2 (n + 3)),
               cols := [], dlyReq := false, dlyLen := s.cfg.tRowSettle,
               events := s.events ++ idleScanEvents s.cfg (n + 4) 0,
               time := s.time + (n + 4) * s.cfg.tRowSettle }

/-- 40_keypad_scanner.md R130: a scan that sees no key goes on for ever, strobing the rows in turn, and nothing else
happens. Four strobes are one step (log 10). What the ports `bus_byte`, `dly_req`, `dly_len` hold afterwards is
the model's (log 24). -/
def Obligations.ScanGoesOnForever : Prop :=
  ∀ (s : State) (n : Nat), s.cfg.wf = true → s.rst = false → s.rstIn = none → s.halted = false → s.stalled = false →
    s.scanning = true → s.cols = [] → ¬ someKeySeen s.cfg s.keys →
      core.run (n + 1) s = .next
        { s with ksPhase := .drive, kpRow := strobe s.cfg (s.ksRow + 3), dlyReq := false,
                 dlyLen := s.cfg.tRowSettle, events := s.events ++ idleScanEvents s.cfg (4 * (n + 1)) s.ksRow,
                 time := s.time + 4 * (n + 1) * s.cfg.tRowSettle }

/-- 40_keypad_scanner.md R129: the result of a call that has returned is a digit in [0,9], in every build the spec
admits. The field `ret` that holds the result is the model's (log 14). -/
def Obligations.ReadDigitInRange : Prop :=
  ∀ s t : State, s.cfg.wf = true → exec .ksReaddigit s = .next t → t.scanning = false → t.rst = false →
    ∃ d : Nibble, t.ret = .digit d ∧ d.toNat ≤ 9

/-- The 16 keypad patterns: the captured pattern of a digit slot gives that slot's digit, that of a reserved slot the
digit 0 with NoMatch (40_keypad_scanner.md R127, R128). That a pattern row is a lookup alone is the model's (log
20). The field `ret` that holds the result is the model's (log 14). -/
def Obligations.KeypadPatternRows : Prop :=
  ∀ (s : State) (k : Nat) (i : Instr), s.cfg.wf = true → s.rstIn = none → (k, i) ∈ slotInstrs →
    exec i s = .next
      { s with ksPat := (keymapRom s.cfg k).pattern, ksSlot := BitVec.ofNat 4 k, ksPhase := .idle,
               ret := .digit (if (keymapRom s.cfg k).isDigit then (keymapRom s.cfg k).digit else 0),
               stNomatch := s.stNomatch || !(keymapRom s.cfg k).isDigit,
               events := s.events ++
                 if (keymapRom s.cfg k).isDigit then [] else [.noMatch (keymapRom s.cfg k).pattern] }

/-! ## The cipher engine -/

/-- 41_cipher_engine.md R141, R147: `(digit + shift) mod 10` with the shift of the key letter at `position mod KEYLEN`,
for every operand value; no register, no event and no time. The result is handed over in `ret` (log 14). -/
def Obligations.EncryptResult : Prop :=
  ∀ (s : State) (d : Nibble) (q : Position), s.cfg.wf = true →
    exec (.ceEncrypt d q) s = .next
      { s with ret := .digit (BitVec.ofNat 4
          ((d.toNat + ((s.cfg.key.getD (q % s.cfg.key.length) 0x41).toNat - 0x41)) % 10)) }

/-- 41_cipher_engine.md R144: the cipher is periodic in the position with period `KEYLEN`. -/
def Obligations.EncryptIsPeriodic : Prop :=
  ∀ (s : State) (d : Nibble) (q : Position),
    exec (.ceEncrypt d (q + keyLen s.cfg)) s = exec (.ceEncrypt d q) s

/-- For a fixed position the cipher stays in [0,9] and is a bijection on it: what follows from 41_cipher_engine.md R141 by
R146, whose rotation is the formula of `Obligations.EncryptResult`. -/
def Obligations.EncryptIsBijective : Prop :=
  ∀ (p : Params) (q : Position), p.wf = true →
    (∀ d : Nibble, (encryptDigit p d q).toNat ≤ 9) ∧
      ∀ e : Nibble, e.toNat ≤ 9 → ∃! d : Nibble, d.toNat ≤ 9 ∧ encryptDigit p d q = e

/-! ## The Morse encoder -/

/-- 42_morse_encoder.md R151, R152, 30_encoding.md R97: the word ME.ENCODE gives holds the marks of the digit and no
others, zero bits above them. The field `ret` that holds the result is the model's (log 14). -/
def Obligations.EncodeResult : Prop :=
  ∀ (s : State) (d : Nibble), ∃ w : Byte, exec (.meEncode d) s = .next { s with ret := .word w } ∧
    marksOf w = morseMarks d.toNat ∧ ∀ i, markCount w ≤ i → i < 5 → markAt w i = false

/-- The 11 words of the Morse table (30_encoding.md R98). That a table row delivers its word is the model's (log 19).
The field `ret` that holds the result is the model's (log 14). -/
def Obligations.MorseRows : Prop :=
  ∀ (s : State) (i : Instr) (w : Byte),
    (i, w) ∈ [(Instr.mwDigit0, 0xBF#8), (.mwDigit1, 0xBE#8), (.mwDigit2, 0xBC#8), (.mwDigit3, 0xB8#8),
              (.mwDigit4, 0xB0#8), (.mwDigit5, 0xA0#8), (.mwDigit6, 0xA1#8), (.mwDigit7, 0xA3#8),
              (.mwDigit8, 0xA7#8), (.mwDigit9, 0xAF#8), (.mwEmpty, 0x00#8)] →
      exec i s = .next { s with ret := .word w }

/-! ## The display channel driver -/

/-- 43_display_channel_driver.md R164, R179: DCD.SENDBYTE hands over one byte and waits for ready; on either channel,
and nothing else changed. That the display view stays, also where the byte is the last frame of a command or character
sent frame by frame (30_encoding.md R105, 10_state.md R44), is the model's (log 13), and so is that any byte is sent,
also one with bit 1, `rw`, set (log 35). What the ports `bus_byte`,
`dly_req`, `dly_len` hold afterwards is the model's (log 24). -/
def Obligations.SendByteCompletes : Prop :=
  ∀ (s : State) (b : Byte) (c : Chan) (i : Instr),
    (c, i) ∈ [(Chan.ch1, Instr.dcdSendbyteCh1 b), (.ch2, .dcdSendbyteCh2 b)] →
      s.rstIn = none → (s.drv c).inited = true → s.answers c 1 = true →
        exec i s = .next (channelAfter c 1 [.busData c b, .busReady c] 0
          (fun d => { d with busReq := .none, busByte := b }) id s)

/-- 43_display_channel_driver.md R166, R179: DCD.SENDNIBBLE sends the nibble twice, the strobe asserted and then
deasserted, with a ready-wait and a delay after each; `d_step` advances by 2; nothing else changed. That the
display view stays, also where the nibble is the second of a command or character sent nibble by nibble (30_encoding.md
R105, 10_state.md R44), is the model's (log 13). What the ports `bus_byte`, `dly_req`, `dly_len` hold afterwards is the
model's (log 24). -/
def Obligations.SendNibbleCompletes : Prop :=
  ∀ (s : State) (n : Nibble) (rs : Bool) (c : Chan) (i : Instr),
    (c, i) ∈ [(Chan.ch1, Instr.dcdSendnibbleCh1 n rs), (.ch2, .dcdSendnibbleCh2 n rs)] →
      s.rstIn = none → (s.drv c).inited = true → s.answers c 2 = true →
        exec i s = .next (sleptLast s.cfg.tStep (channelAfter c 2 (nibbleEvents s.cfg c n rs) (2 * s.cfg.tStep)
          (fun d => { d with step := d.step + 2, busReq := .none, busByte := frame s.cfg n false rs }) id s))

/-- 43_display_channel_driver.md R168, R169: DCD.WRITECOMMAND transfers any byte as given, high nibble first; the
cursor register is not changed; the display takes the command (10_state.md R44). What the ports `bus_byte`,
`dly_req`, `dly_len` hold afterwards is the model's (log 24). -/
def Obligations.WriteCommandCompletes : Prop :=
  ∀ (s : State) (b : Byte) (c : Chan) (i : Instr),
    (c, i) ∈ [(Chan.ch1, Instr.dcdWritecommandCh1 b), (.ch2, .dcdWritecommandCh2 b)] →
      s.rstIn = none → (s.drv c).inited = true → s.answers c 4 = true →
        exec i s = .next (afterTransfer c false b id (fun v => v.command s.cfg b) s)

/-- 43_display_channel_driver.md R176: DCD.WRITECHAR transfers a character, the cursor register is advanced by one
modulo 8; the display holds the character at its cursor (10_state.md R44). What the ports `bus_byte`, `dly_req`,
`dly_len` hold afterwards is the model's (log 24). -/
def Obligations.WriteCharCompletes : Prop :=
  ∀ (s : State) (b : Byte) (c : Chan) (i : Instr),
    (c, i) ∈ [(Chan.ch1, Instr.dcdWritecharCh1 b), (.ch2, .dcdWritecharCh2 b)] →
      s.rstIn = none → (s.drv c).inited = true → s.answers c 4 = true →
        exec i s = .next (afterTransfer c true b (· + 1)
          (fun v => { v with text := v.text.write v.vcur b, vcur := v.vcur + 1 }) s)

/-- 43_display_channel_driver.md R172, R173, R179: DCD.CLEAR sends clear and home, waits the settle delay, sets the
cursor register to 0; the display is empty (10_state.md R44). What the ports `bus_byte`, `dly_req`, `dly_len` hold
afterwards is the model's (log 24). -/
def Obligations.ClearCompletes : Prop :=
  ∀ (s : State) (c : Chan) (i : Instr), (c, i) ∈ [(Chan.ch1, Instr.dcdClearCh1), (.ch2, .dcdClearCh2)] →
    s.rstIn = none → (s.drv c).inited = true → s.answers c 8 = true → exec i s = .next (afterClear c s)

/-- 43_display_channel_driver.md R174: DCD.MOVECURSOR sends `CURSOR_BASE + o`, sets the cursor register to `o`, and
the display's cursor moves there (10_state.md R44). What the ports `bus_byte`, `dly_req`, `dly_len` hold
afterwards is the model's (log 24). -/
def Obligations.MoveCursorCompletes : Prop :=
  ∀ (s : State) (o : BitVec 2) (c : Chan) (i : Instr),
    (c, i) ∈ [(Chan.ch1, Instr.dcdMovecursorCh1 o), (.ch2, .dcdMovecursorCh2 o)] →
      s.cfg.wf = true → s.rstIn = none → (s.drv c).inited = true → s.answers c 4 = true →
        exec i s = .next (afterTransfer c false (s.cfg.cursorBase + o.setWidth 8) (fun _ => o.setWidth 3)
          (fun v => { v with vcur := o.toNat }) s)

/-- 43_display_channel_driver.md R177: DCD.DISPLAYOFF sends the command; the cursor register and the text stay; the
display is off (10_state.md R44). What the ports `bus_byte`, `dly_req`, `dly_len` hold afterwards is the model's
(log 24). -/
def Obligations.DisplayOffCompletes : Prop :=
  ∀ (s : State) (c : Chan) (i : Instr), (c, i) ∈ [(Chan.ch1, Instr.dcdDisplayoffCh1), (.ch2, .dcdDisplayoffCh2)] →
    s.cfg.wf = true → s.rstIn = none → (s.drv c).inited = true → s.answers c 4 = true →
      exec i s = .next (afterTransfer c false s.cfg.cmdDisplayOff id (fun v => { v with on := false }) s)

/-- 43_display_channel_driver.md R170, R171, R179: DCD.INITIALIZE starts and addresses the bus, sends the twelve
pairs, clears the display; `d_init` is 1 and the display is on. `d_seq` ends at 11 (log 16). That a build's pairs may be
any bytes is the model's (log 34). What the ports
`bus_byte`, `dly_req`, `dly_len` hold afterwards is the model's (log 24). -/
def Obligations.InitializeCompletes : Prop :=
  ∀ (s : State) (c : Chan) (i : Instr), (c, i) ∈ [(Chan.ch1, Instr.dcdInitializeCh1), (.ch2, .dcdInitializeCh2)] →
    s.cfg.wf = true → s.rstIn = none → (s.drv c).inited = false → (s.line c).started = false →
      s.answers c 34 = true →
      exec i s = .next (afterInitialise c s)

/-- The five display commands on either channel (30_encoding.md R92): each is one transferred byte with its register
select, with the effect on the display that 10_state.md R44 gives it. That the cursor register follows, and that
no settle delay is part of the row, is the model's (log 21). What the ports `bus_byte`, `dly_req`, `dly_len` hold
afterwards is the model's (log 24). -/
def Obligations.DisplayCommandRows : Prop :=
  ∀ (s : State) (c : Chan), s.cfg.wf = true → s.rstIn = none → (s.drv c).inited = true → s.answers c 4 = true →
    exec (.dcClear c) s = .next (afterTransfer c false s.cfg.cmdClear (fun _ => 0) View.cleared s) ∧
      exec (.dcHome c) s = .next (afterTransfer c false s.cfg.cmdHome (fun _ => 0) (fun v => { v with vcur := 0 }) s) ∧
      (∀ o, exec (.dcSetcursor c o) s = .next (afterTransfer c false (cursorCommand s.cfg o)
        (fun _ => o.setWidth 3) (fun v => { v with vcur := o.toNat }) s)) ∧
      exec (.dcDisplayoff c) s =
        .next (afterTransfer c false s.cfg.cmdDisplayOff id (fun v => { v with on := false }) s) ∧
      ∀ b, exec (.dcWritechar c b) s = .next (afterTransfer c true b (· + 1)
        (fun v => { v with text := v.text.write v.vcur b, vcur := v.vcur + 1 }) s)

/-- The two frame forms on either channel (30_encoding.md R91, 43_display_channel_driver.md R166): one frame `{n, BL,
en, 0, rs}`, its ready-wait, its delay. That a frame row carries the delay and advances `d_step` is the model's (log
22), and that the display view stays, also where the frame completes a byte, is the model's (log 13). What the ports
`bus_byte`, `dly_req`, `dly_len` hold afterwards is the model's (log 24). -/
def Obligations.FrameRows : Prop :=
  ∀ (s : State) (c : Chan) (n : Nibble) (en rs : Bool) (i : Instr),
    (rs, i) ∈ [(false, Instr.bfCommand c n en), (true, .bfCharacter c n en)] →
      s.rstIn = none → (s.drv c).inited = true → s.answers c 1 = true →
        exec i s = .next (sleptLast s.cfg.tStep (channelAfter c 1
          [.busData c (n ++ BitVec.ofBool s.cfg.bl ++ BitVec.ofBool en ++ 0#1 ++ BitVec.ofBool rs), .busReady c,
            .delay s.cfg.tStep] s.cfg.tStep
          (fun d => { d with step := d.step + 1, busReq := .none,
                             busByte := n ++ BitVec.ofBool s.cfg.bl ++ BitVec.ofBool en ++ 0#1 ++ BitVec.ofBool rs })
          id s))

/-- 43_display_channel_driver.md R178, in every display operation, DCD.INITIALIZE included, and in any of its waits:
with `BUS_TIMEOUT = none`, when the first `k` waits are answered and the ready flag then never sets, the block has
done all up to that request and is for ever in the wait: no further event, no flag. Of DCD.SENDBYTE the whole state is
given. Which frames and waits a DC or BF row has is the model's (log 21, 22), and that the bytes of DCD.SENDBYTE and of
`INIT_SEQ` are any bytes (log 34, 35). What the ports `bus_byte`, `dly_req`,
`dly_len` hold afterwards is the model's (log 24). -/
def Obligations.BusStallHangs : Prop :=
  (∀ (s : State) (b : Byte) (c : Chan) (i : Instr),
    (c, i) ∈ [(Chan.ch1, Instr.dcdSendbyteCh1 b), (.ch2, .dcdSendbyteCh2 b)] → s.rstIn = none →
      (s.drv c).inited = true → s.cfg.busTimeout = none → (s.line c).ready.pop.1 = none →
        exec i s = .next
          { s.modDrv c (fun d => { d with busReq := .data, busByte := b }) with
            events := s.events ++ [.busData c b] }) ∧
    ∀ (s : State) (c : Chan) (i : Instr) (k : Nat), s.cfg.wf = true → s.rst = false → s.rstIn = none →
      displayChan i = some c → channelFits i c s → s.cfg.busTimeout = none →
      k < requestCount (displayEvents s.cfg i) → s.answers c k = true →
      ((s.line c).ready.after k).pop.1 = none →
        ∃ t, exec i s = .next t ∧ t.events = s.events ++ upToRequest k (displayEvents s.cfg i) ∧
          t.time = s.time + sleepTime (upToRequest k (displayEvents s.cfg i)) + (s.line c).ready.waited k ∧
          t.stNomatch = s.stNomatch ∧ t.stBusTimeout = s.stBusTimeout ∧ t.stDone = s.stDone ∧
          t.scPhase = s.scPhase ∧ ∀ n, core.run n t = .next t

/-- 60_exceptions.md R238, in every display operation, DCD.INITIALIZE included, and in any of its waits: with
`BUS_TIMEOUT = T`, when the first `k` waits are answered in time and the next has lasted `T` without the flag, the
block sets `st_bus_timeout`, emits `BusTimeout(c)` and stands in `SC_HALT`, for ever; `st_done` stays and there is no
`Done`. Of DCD.SENDBYTE the whole state is given. A flag that would set exactly at a positive `T` comes too late (log
11). Which frames and waits a DC or BF row has is the model's (log 21, 22), and that the bytes of DCD.SENDBYTE and of
`INIT_SEQ` are any bytes (log 34, 35). What the ports `bus_byte`, `dly_req`,
`dly_len` hold afterwards is the model's (log 24). -/
def Obligations.BusTimeoutHalts : Prop :=
  (∀ (s : State) (b : Byte) (c : Chan) (i : Instr) (limit : Nat),
    (c, i) ∈ [(Chan.ch1, Instr.dcdSendbyteCh1 b), (.ch2, .dcdSendbyteCh2 b)] → s.rstIn = none →
      (s.drv c).inited = true → s.cfg.busTimeout = some limit →
      (∀ w, (s.line c).ready.pop.1 = some w → limit ≤ w ∧ 0 < w) →
        exec i s = .next
          { s.modDrv c (fun d => { d with busReq := .data, busByte := b }) with
            events := s.events ++ [.busData c b, .busTimeout c], time := s.time + limit,
            stBusTimeout := true, scPhase := .halt }) ∧
    ∀ (s : State) (c : Chan) (i : Instr) (k limit : Nat), s.cfg.wf = true → s.rst = false → s.rstIn = none →
      displayChan i = some c → channelFits i c s → s.cfg.busTimeout = some limit →
      k < requestCount (displayEvents s.cfg i) → s.answers c k = true →
      (∀ w, ((s.line c).ready.after k).pop.1 = some w → limit ≤ w ∧ 0 < w) →
        ∃ t, exec i s = .next t ∧
          t.events = s.events ++ upToRequest k (displayEvents s.cfg i) ++ [.busTimeout c] ∧
          t.time = s.time + sleepTime (upToRequest k (displayEvents s.cfg i)) + (s.line c).ready.waited k + limit ∧
          t.stNomatch = s.stNomatch ∧ t.stBusTimeout = true ∧ t.stDone = s.stDone ∧ t.scPhase = .halt ∧
          ∀ n, core.run n t = .next t

/-- 43_display_channel_driver.md R163, 93_implementation_defined.md U9: every display operation but DCD.INITIALIZE is
refused on a channel that is not initialised. That the DC and BF rows are display operations, refused in the same way,
is the model's (log 21, 22, 23). -/
def Obligations.RefusedBeforeInit : Prop :=
  ∀ (s : State) (c : Chan) (i : Instr), displayChan i = some c → i ≠ .dcdInitializeCh1 → i ≠ .dcdInitializeCh2 →
    (s.drv c).inited = false → exec i s = .refused (.notInitialised c)

/-- 93_implementation_defined.md U10, U11: DCD.INITIALIZE is refused on an initialised channel, and on a bus that has been
started. -/
def Obligations.SecondInitializeRefused : Prop :=
  ∀ (s : State) (c : Chan) (i : Instr), (c, i) ∈ [(Chan.ch1, Instr.dcdInitializeCh1), (.ch2, .dcdInitializeCh2)] →
    ((s.drv c).inited = true → exec i s = .refused (.alreadyInitialised c)) ∧
      ((s.drv c).inited = false → (s.line c).started = true → exec i s = .refused (.busAlreadyStarted c))

/-- 20_memory.md R51, 43_display_channel_driver.md R161: an operation on one channel neither reads nor writes the other
channel's registers, bus, ready flag or display; where `rst` cuts it off, the other channel's registers are reset too,
and its environment is not (70_reset_and_hazards.md R267; log 26). -/
def Obligations.ChannelsAreIsolated : Prop :=
  ∀ (s : State) (c : Chan) (i : Instr) (d : Driver) (l : Line), displayChan i = some c → s.rst = false →
    exec i (withChannel (otherChan c) d l s) =
      mapNext (unlessReset (withChannel (otherChan c) d l) fun t => t.modLine (otherChan c) fun _ => l) (exec i s)

/-- What a display holds, position by position, whether or not the transfer ends (10_state.md R44): a character form
changes the position at the display's cursor and no other; the forms that store nothing change no position; a clear,
alone or at the end of DCD.INITIALIZE, leaves every position or empties the display, and does the latter once its
clear command is taken. Which byte a DC or BF row transfers is the model's (log 21, 22). That DCD.SENDBYTE,
DCD.SENDNIBBLE and the BF rows store nothing, also where they complete a command or character sent piece by piece
(30_encoding.md R105, 43_display_channel_driver.md R168), is the model's (log 13). -/
def Obligations.DisplayPositions : Prop :=
  ∀ (s t : State) (c : Chan) (i : Instr), s.cfg.wf = true → displayChan i = some c → exec i s = .next t →
    (∀ b, (c, i) ∈ [(Chan.ch1, Instr.dcdWritecharCh1 b), (.ch2, .dcdWritecharCh2 b), (c, .dcWritechar c b)] →
      (∀ a, a ≠ (s.line c).view.vcur → (t.line c).view.text.read a = (s.line c).view.text.read a) ∧
        (s.rstIn = none → s.answers c 4 = true → (t.line c).view.text.read (s.line c).view.vcur = some b)) ∧
    (∀ n en rs o b b', b ≠ s.cfg.cmdClear →
      i ∈ [Instr.dcdSendbyteCh1 b', .dcdSendnibbleCh1 n rs, .dcdWritecommandCh1 b, .dcdMovecursorCh1 o,
           .dcdDisplayoffCh1, .dcdSendbyteCh2 b', .dcdSendnibbleCh2 n rs, .dcdWritecommandCh2 b, .dcdMovecursorCh2 o,
           .dcdDisplayoffCh2, .dcHome c, .dcSetcursor c o, .dcDisplayoff c, .bfCommand c n en,
           .bfCharacter c n en] →
        ∀ a, (t.line c).view.text.read a = (s.line c).view.text.read a) ∧
    (∀ waits, (i, waits) ∈ [(Instr.dcdClearCh1, 4), (.dcdClearCh2, 4), (.dcClear c, 4),
          (.dcdWritecommandCh1 s.cfg.cmdClear, 4), (.dcdWritecommandCh2 s.cfg.cmdClear, 4),
          (.dcdInitializeCh1, 30), (.dcdInitializeCh2, 30)] →
      ((∀ a, (t.line c).view.text.read a = (s.line c).view.text.read a) ∨
          ∀ a, (t.line c).view.text.read a = none) ∧
        (s.rstIn = none → s.answers c waits = true → ∀ a, (t.line c).view.text.read a = none))

/-! ## The LED player -/

/-- 44_led_morse_player.md R191, R194, R198: a play of at most five marks emits its marks in order and the character
gap, takes the time of the formula, and leaves the player idle with the LED off; nothing else changed. The mark
index ends at the last mark (log 16). What the ports `bus_byte`, `dly_req`, `dly_len` hold afterwards is the
model's (log 24). -/
def Obligations.PlayCompletes : Prop :=
  ∀ (s : State) (w : Byte), s.rstIn = none → 1 ≤ markCount w → markCount w ≤ 5 →
    exec (.lmpPlay w) s = .next (afterPlay w s)

/-- 44_led_morse_player.md R195: the empty sequence emits the one event `Delay(T_CHAR_GAP)`, takes that time and
leaves the LED as it was. What the ports `bus_byte`, `dly_req`, `dly_len` hold afterwards is the model's (log 24). -/
def Obligations.PlayOfEmptyWord : Prop :=
  ∀ (s : State) (w : Byte), s.rstIn = none → markCount w = 0 →
    exec (.lmpPlay w) s = .next
      { s with lmpState := .idle, dlyReq := false, dlyLen := s.cfg.tCharGap,
               events := s.events ++ [.delay s.cfg.tCharGap], time := s.time + s.cfg.tCharGap }

/-- 44_led_morse_player.md R196: a word with `len` 6 or 7 is refused; of any other word the bits of `marks` at and above
`len` are ignored. -/
def Obligations.PlayRefusesLongWords : Prop :=
  (∀ (s : State) (w : Byte), markCount w = 6 ∨ markCount w = 7 → exec (.lmpPlay w) s = .refused .morseLength) ∧
    ∀ (s : State) (w w' : Byte), markCount w = markCount w' → (∀ i, i < markCount w → markAt w i = markAt w' i) →
      exec (.lmpPlay w) s = exec (.lmpPlay w') s

/-! ## The session controller -/

/-- 45_session_controller.md R207: SC.START initialises channel 1 and then channel 2. What the ports `bus_byte`,
`dly_req`, `dly_len` hold afterwards is the model's (log 24). -/
def Obligations.StartCompletes : Prop :=
  ∀ s : State, s.cfg.wf = true → s.rstIn = none → s.drv1.inited = false → s.drv2.inited = false →
    s.line1.started = false → s.line2.started = false → s.answers .ch1 34 = true → s.answers .ch2 34 = true →
      exec .scStart s = .next { afterInitialise .ch2 (afterInitialise .ch1 s) with scPhase := .check }

/-- 45_session_controller.md R209 to R218: one iteration, its events in order, its time, and every register it leaves;
nothing else changed. Its read captures `c` after `n` idle samples, a listed sample or the held keys (log 7). Where
`rem` is 0, in SC.ITERATE taken alone, it stays 0 (log 15); the final loop indices are deduced (log 16); `pos` and
`cnt` wrap in their widths (log 29). What the ports `bus_byte`, `dly_req`, `dly_len` hold afterwards is the model's
(log 24). The field `ret` that holds the result is the model's (log 14). -/
def Obligations.IterateCompletes : Prop :=
  ∀ (s : State) (n : Nat) (c : Nibble) (rest : List Nibble), s.cfg.wf = true → s.rstIn = none →
    s.drv1.inited = true → s.drv2.inited = true → s.cnt.toNat ≤ 4 → s.captures n c rest →
    s.answers .ch1 (iterationWaits1 s.cnt) = true → s.answers .ch2 (iterationWaits2 s.cnt) = true →
      exec .scIterate s = .next (afterIteration n c rest s)

/-- 45_session_controller.md R214, R215, R220: after an iteration display 1 shows the digits of the window, left to right,
and display 2 the encrypted digit and its five mark characters. -/
def Obligations.IterationShows : Prop :=
  ∀ s t : State, s.cfg.wf = true → s.cnt.toNat ≤ 4 → s.line1.view.on = true → s.line2.view.on = true →
    (s.cnt.toNat ≤ 3 → s.line1.view.shows = some (s.window.map digitChar)) → s.window.length = s.cnt.toNat →
    (∀ a, s.cnt.toNat ≤ a → s.line1.view.text.read a = none) → s.line1.view.text.wf = true →
    exec .scIterate s = .next t → t.scPhase = .check →
      t.line1.view.shows = some (t.window.map digitChar) ∧
        t.line2.view.shows = some (digitChar t.enc :: (morseMarks t.enc.toNat).map markChar)

/-- 45_session_controller.md R221: display-off on channel 1, then on channel 2, then `st_done`, `Done`, `SC_HALT`.
What the ports `bus_byte`, `dly_req`, `dly_len` hold afterwards is the model's (log 24). -/
def Obligations.TerminateCompletes : Prop :=
  ∀ s : State, s.cfg.wf = true → s.rstIn = none → s.drv1.inited = true → s.drv2.inited = true →
    s.answers .ch1 4 = true → s.answers .ch2 4 = true →
      let off := fun (c : Chan) (u : State) =>
        afterTransfer c false u.cfg.cmdDisplayOff id (fun v => { v with on := false }) u
      let t := off .ch2 (off .ch1 s)
      exec .scTerminate s =
        .next { t with stDone := true, scPhase := .halt, events := t.events ++ [.done] }

/-- 45_session_controller.md R205, R208, R222: when every ready-wait of the run is answered (`runWaits1`, `runWaits2`:
how many there are on each channel) and some key is seen, the whole run completes, with exactly `rem` more digits
accepted, and halts with `st_done` and both displays off. A position that would pass `2^POS_WIDTH` wraps, which no run
from reset does (R11, log 29). -/
def Obligations.RunCompletes : Prop :=
  ∀ s : State, s.cfg.wf = true → s.rstIn = none → s.pos < 2 ^ s.cfg.posWidth → s.drv1.inited = false →
    s.drv2.inited = false → s.line1.started = false → s.line2.started = false →
    s.answers .ch1 (runWaits1 s.rem s.cnt) = true → s.answers .ch2 (runWaits2 s.rem s.cnt) = true →
    someKeySeen s.cfg s.keys →
      ∃ t, exec .scRun s = .next t ∧ t.stDone = true ∧ t.scPhase = .halt ∧ t.rem = 0 ∧
        t.pos = (s.pos + s.rem) % 2 ^ s.cfg.posWidth ∧ t.line1.view.on = false ∧ t.line2.view.on = false ∧
        t.stBusTimeout = s.stBusTimeout ∧ t.events.getLast? = some .done

/-- 45_session_controller.md R222, R223: what the run of 100 iterations from reset leaves and how often it does what,
for every build, every key sequence in which some key is seen at last, and all ready flags that answer the 1130 waits
of channel 1 and the 3430 of channel 2, however long each takes within the bound. -/
def Obligations.RunCounts : Prop :=
  ∀ (p : Params) (env : Environment), p.wf = true → p.iterCount = 100 → env.rstIn = none →
    env.line1.started = false → env.line2.started = false → (State.initial p env).answers .ch1 1130 = true →
    (State.initial p env).answers .ch2 3430 = true → someKeySeen p env.keys →
      ∃ t, exec .scRun (State.initial p env) = .next t ∧
        t.pos = 100 ∧ t.rem = 0 ∧ t.cnt = 4 ∧ t.stDone = true ∧
        (t.events.filter fun e => requestChan e == some .ch1).length = 1130 ∧
        (t.events.filter fun e => requestChan e == some .ch2).length = 3430 ∧
        (t.events.filter fun e => e == .led true).length = 500

/-- 45_session_controller.md R222: in `SC_HALT` the block does nothing, for ever. -/
def Obligations.HaltIsFinal : Prop :=
  ∀ (s : State) (n : Nat), s.cfg.wf = true → s.rst = false → s.scPhase = .halt → core.run n s = .next s

/-- 45_session_controller.md R206: in a step with nothing presented the controller stays in its phase, enters the phase
the rule names, or, only where `BUS_TIMEOUT` bounds a wait, halts; where `rst` cuts the step off it is in `SC_RESET`
(70_reset_and_hazards.md R265; log 26). There is no other transition. -/
def Obligations.PhaseWalk : Prop :=
  ∀ s t : State, s.rst = false → s.slot = none → step s = .next t →
    t.scPhase = s.scPhase ∨ t.scPhase = s.nextPhase ∨
      (t.scPhase = .halt ∧ t.stBusTimeout = true ∧ s.cfg.busTimeout.isSome = true) ∨
      (t.scPhase = .reset ∧ t.rst = true)

/-- 45_session_controller.md R206, R209: from the loop test the phase walk, step by step, reaches exactly the state
SC.ITERATE gives as one operation, also where the iteration stops in a ready-wait, at a scan without a key or at
`rst`. -/
def Obligations.WalkPerformsIteration : Prop :=
  ∀ s t : State, s.open → s.slot = none → s.drv1.inited = true → s.drv2.inited = true → s.scPhase = .check →
    s.rem ≠ 0 → exec .scIterate s = .next t → ∃ n, core.run n s = .next t

/-- 45_session_controller.md R205, R206, 70_reset_and_hazards.md R266: from reset, with nothing presented, the phase
walk reaches exactly the state SC.RUN gives as one operation, also where the run stops or `rst` ends it. -/
def Obligations.WalkPerformsRun : Prop :=
  ∀ (p : Params) (env : Environment) (t : State), p.wf = true → env.rst = false → env.line1.started = false →
    env.line2.started = false → exec .scRun (State.initial p env) = .next t →
      ∃ n, core.run n (State.initial p env) = .next t

/-! ## Invariants and whole-machine rules -/

/-- 10_state.md R40, R39, R32, R26, 70_reset_and_hazards.md R265: the invariants of the block are kept by every step,
whatever it performs and whenever `rst` comes. -/
def Obligations.SoundIsKept : Prop :=
  ∀ s t : State, s.Sound → step s = .next t → t.Sound

/-- In a run from reset with nothing presented and no `rst` in it the block never faults and is never refused, and the
relations between phase, initialisation, count, position and remaining iterations are kept (10_state.md R26, R40;
45_session_controller.md R206, R207, R210; 60_exceptions.md R245). -/
def Obligations.InRunIsKept : Prop :=
  ∀ s : State, s.InRun → ∃ t, step s = .next t ∧ t.InRun

/-- 20_memory.md R58: the traffic of a channel is one start, one address, its own, then data only, whatever is
performed. -/
def Obligations.TrafficIsKept : Prop :=
  ∀ (s t : State) (c : Chan), s.TrafficOk c → step s = .next t → t.TrafficOk c

/-- 70_reset_and_hazards.md R276, 20_memory.md R66: every request is followed at once by the end of its ready-wait, and no
step begins while one is outstanding. -/
def Obligations.RequestsAreAnswered : Prop :=
  ∀ s t : State, s.Answered → step s = .next t → t.Answered

/-- 10_state.md R31, 60_exceptions.md R246: the three flags are sticky: without reset no step clears one. -/
def Obligations.FlagsAreSticky : Prop :=
  ∀ s t : State, s.rst = false → step s = .next t → t.rst = false →
    (s.stNomatch = true → t.stNomatch = true) ∧ (s.stBusTimeout = true → t.stBusTimeout = true) ∧
      (s.stDone = true → t.stDone = true)

/-- 10_state.md R31: no operation reads a flag: with flags set beforehand every operation does the same, and the flags
are still set, unless `rst` cuts it off (70_reset_and_hazards.md R265; log 26). -/
def Obligations.FlagsAreNeverRead : Prop :=
  ∀ (s : State) (i : Instr) (x y z : Bool), s.rst = false →
    exec i (orFlags x y z s) = mapNext (unlessReset (orFlags x y z) id) (exec i s)

/-- 10_state.md R34, R39, R44: no rule reads the cursor registers, the ghost window or the display views: what every step
does besides them does not depend on them. -/
def Obligations.GhostsAreNeverRead : Prop :=
  ∀ s : State, mapNext eraseGhosts (step (eraseGhosts s)) = mapNext eraseGhosts (step s)

/-- 20_memory.md R52: no step changes a parameter or a table. -/
def Obligations.ParametersAreConstant : Prop :=
  ∀ s t : State, step s = .next t → t.cfg = s.cfg

/-- 00_scope.md R17, 20_memory.md R66: without reset a step only appends events, and model time advances by the sleeps
among them and by nothing else but ready-waits; a step that `rst` cuts off only appends events. -/
def Obligations.TraceGrows : Prop :=
  ∀ s t : State, s.rst = false → step s = .next t →
    ∃ evs, t.events = s.events ++ evs ∧
      (t.rst = false → s.time + sleepTime evs ≤ t.time ∧
        ((∀ c, Event.busReady c ∉ evs ∧ Event.busTimeout c ∉ evs) → t.time = s.time + sleepTime evs))
end

