-- ==== Sys2Proof/Laws/State.lean ====
section
/-! SUPPORT. One lemma per field per update of the state, each true by rfl, so that no proof unfolds a record update.
`drv` and `line` read the registers and the environment of a channel. -/

namespace Sys2Proof.Machine

variable (s : State)

/-! ### emit -/

@[simp] theorem emit_dig (e : Event) : (s.emit e).dig = s.dig := rfl
@[simp] theorem emit_enc (e : Event) : (s.emit e).enc = s.enc := rfl
@[simp] theorem emit_mw (e : Event) : (s.emit e).mw = s.mw := rfl
@[simp] theorem emit_cnt (e : Event) : (s.emit e).cnt = s.cnt := rfl
@[simp] theorem emit_pos (e : Event) : (s.emit e).pos = s.pos := rfl
@[simp] theorem emit_rem (e : Event) : (s.emit e).rem = s.rem := rfl
@[simp] theorem emit_ksRow (e : Event) : (s.emit e).ksRow = s.ksRow := rfl
@[simp] theorem emit_ksPat (e : Event) : (s.emit e).ksPat = s.ksPat := rfl
@[simp] theorem emit_ksSlot (e : Event) : (s.emit e).ksSlot = s.ksSlot := rfl
@[simp] theorem emit_drv1 (e : Event) : (s.emit e).drv1 = s.drv1 := rfl
@[simp] theorem emit_drv2 (e : Event) : (s.emit e).drv2 = s.drv2 := rfl
@[simp] theorem emit_scPhase (e : Event) : (s.emit e).scPhase = s.scPhase := rfl
@[simp] theorem emit_ksPhase (e : Event) : (s.emit e).ksPhase = s.ksPhase := rfl
@[simp] theorem emit_lmpState (e : Event) : (s.emit e).lmpState = s.lmpState := rfl
@[simp] theorem emit_lmpIdx (e : Event) : (s.emit e).lmpIdx = s.lmpIdx := rfl
@[simp] theorem emit_scMi (e : Event) : (s.emit e).scMi = s.scMi := rfl
@[simp] theorem emit_stNomatch (e : Event) : (s.emit e).stNomatch = s.stNomatch := rfl
@[simp] theorem emit_stBusTimeout (e : Event) : (s.emit e).stBusTimeout = s.stBusTimeout := rfl
@[simp] theorem emit_stDone (e : Event) : (s.emit e).stDone = s.stDone := rfl
@[simp] theorem emit_led (e : Event) : (s.emit e).led = s.led := rfl
@[simp] theorem emit_kpRow (e : Event) : (s.emit e).kpRow = s.kpRow := rfl
@[simp] theorem emit_dlyReq (e : Event) : (s.emit e).dlyReq = s.dlyReq := rfl
@[simp] theorem emit_dlyLen (e : Event) : (s.emit e).dlyLen = s.dlyLen := rfl
@[simp] theorem emit_window (e : Event) : (s.emit e).window = s.window := rfl
@[simp] theorem emit_cols (e : Event) : (s.emit e).cols = s.cols := rfl
@[simp] theorem emit_keys (e : Event) : (s.emit e).keys = s.keys := rfl
@[simp] theorem emit_line1 (e : Event) : (s.emit e).line1 = s.line1 := rfl
@[simp] theorem emit_line2 (e : Event) : (s.emit e).line2 = s.line2 := rfl
@[simp] theorem emit_rst (e : Event) : (s.emit e).rst = s.rst := rfl
@[simp] theorem emit_rstIn (e : Event) : (s.emit e).rstIn = s.rstIn := rfl
@[simp] theorem emit_cfg (e : Event) : (s.emit e).cfg = s.cfg := rfl
@[simp] theorem emit_events (e : Event) : (s.emit e).events = s.events ++ [e] := rfl
@[simp] theorem emit_time (e : Event) : (s.emit e).time = s.time := rfl
@[simp] theorem emit_ret (e : Event) : (s.emit e).ret = s.ret := rfl
@[simp] theorem emit_slot (e : Event) : (s.emit e).slot = s.slot := rfl
@[simp] theorem emit_drv (e : Event) (c : Chan) : (s.emit e).drv c = s.drv c := by cases c <;> rfl
@[simp] theorem emit_line (e : Event) (c : Chan) : (s.emit e).line c = s.line c := by cases c <;> rfl

/-! ### beginSleep -/

@[simp] theorem beginSleep_dig (n : Nat) : (s.beginSleep n).dig = s.dig := rfl
@[simp] theorem beginSleep_enc (n : Nat) : (s.beginSleep n).enc = s.enc := rfl
@[simp] theorem beginSleep_mw (n : Nat) : (s.beginSleep n).mw = s.mw := rfl
@[simp] theorem beginSleep_cnt (n : Nat) : (s.beginSleep n).cnt = s.cnt := rfl
@[simp] theorem beginSleep_pos (n : Nat) : (s.beginSleep n).pos = s.pos := rfl
@[simp] theorem beginSleep_rem (n : Nat) : (s.beginSleep n).rem = s.rem := rfl
@[simp] theorem beginSleep_ksRow (n : Nat) : (s.beginSleep n).ksRow = s.ksRow := rfl
@[simp] theorem beginSleep_ksPat (n : Nat) : (s.beginSleep n).ksPat = s.ksPat := rfl
@[simp] theorem beginSleep_ksSlot (n : Nat) : (s.beginSleep n).ksSlot = s.ksSlot := rfl
@[simp] theorem beginSleep_drv1 (n : Nat) : (s.beginSleep n).drv1 = s.drv1 := rfl
@[simp] theorem beginSleep_drv2 (n : Nat) : (s.beginSleep n).drv2 = s.drv2 := rfl
@[simp] theorem beginSleep_scPhase (n : Nat) : (s.beginSleep n).scPhase = s.scPhase := rfl
@[simp] theorem beginSleep_ksPhase (n : Nat) : (s.beginSleep n).ksPhase = s.ksPhase := rfl
@[simp] theorem beginSleep_lmpState (n : Nat) : (s.beginSleep n).lmpState = s.lmpState := rfl
@[simp] theorem beginSleep_lmpIdx (n : Nat) : (s.beginSleep n).lmpIdx = s.lmpIdx := rfl
@[simp] theorem beginSleep_scMi (n : Nat) : (s.beginSleep n).scMi = s.scMi := rfl
@[simp] theorem beginSleep_stNomatch (n : Nat) : (s.beginSleep n).stNomatch = s.stNomatch := rfl
@[simp] theorem beginSleep_stBusTimeout (n : Nat) : (s.beginSleep n).stBusTimeout = s.stBusTimeout := rfl
@[simp] theorem beginSleep_stDone (n : Nat) : (s.beginSleep n).stDone = s.stDone := rfl
@[simp] theorem beginSleep_led (n : Nat) : (s.beginSleep n).led = s.led := rfl
@[simp] theorem beginSleep_kpRow (n : Nat) : (s.beginSleep n).kpRow = s.kpRow := rfl
@[simp] theorem beginSleep_dlyReq (n : Nat) : (s.beginSleep n).dlyReq = true := rfl
@[simp] theorem beginSleep_dlyLen (n : Nat) : (s.beginSleep n).dlyLen = n := rfl
@[simp] theorem beginSleep_window (n : Nat) : (s.beginSleep n).window = s.window := rfl
@[simp] theorem beginSleep_cols (n : Nat) : (s.beginSleep n).cols = s.cols := rfl
@[simp] theorem beginSleep_keys (n : Nat) : (s.beginSleep n).keys = s.keys := rfl
@[simp] theorem beginSleep_line1 (n : Nat) : (s.beginSleep n).line1 = s.line1 := rfl
@[simp] theorem beginSleep_line2 (n : Nat) : (s.beginSleep n).line2 = s.line2 := rfl
@[simp] theorem beginSleep_rst (n : Nat) : (s.beginSleep n).rst = s.rst := rfl
@[simp] theorem beginSleep_rstIn (n : Nat) : (s.beginSleep n).rstIn = s.rstIn := rfl
@[simp] theorem beginSleep_cfg (n : Nat) : (s.beginSleep n).cfg = s.cfg := rfl
@[simp] theorem beginSleep_events (n : Nat) : (s.beginSleep n).events = s.events ++ [.delay n] := rfl
@[simp] theorem beginSleep_time (n : Nat) : (s.beginSleep n).time = s.time := rfl
@[simp] theorem beginSleep_ret (n : Nat) : (s.beginSleep n).ret = s.ret := rfl
@[simp] theorem beginSleep_slot (n : Nat) : (s.beginSleep n).slot = s.slot := rfl
@[simp] theorem beginSleep_drv (n : Nat) (c : Chan) : (s.beginSleep n).drv c = s.drv c := by cases c <;> rfl
@[simp] theorem beginSleep_line (n : Nat) (c : Chan) : (s.beginSleep n).line c = s.line c := by cases c <;> rfl

/-! ### endSleep -/

@[simp] theorem endSleep_dig (n : Nat) : (s.endSleep n).dig = s.dig := rfl
@[simp] theorem endSleep_enc (n : Nat) : (s.endSleep n).enc = s.enc := rfl
@[simp] theorem endSleep_mw (n : Nat) : (s.endSleep n).mw = s.mw := rfl
@[simp] theorem endSleep_cnt (n : Nat) : (s.endSleep n).cnt = s.cnt := rfl
@[simp] theorem endSleep_pos (n : Nat) : (s.endSleep n).pos = s.pos := rfl
@[simp] theorem endSleep_rem (n : Nat) : (s.endSleep n).rem = s.rem := rfl
@[simp] theorem endSleep_ksRow (n : Nat) : (s.endSleep n).ksRow = s.ksRow := rfl
@[simp] theorem endSleep_ksPat (n : Nat) : (s.endSleep n).ksPat = s.ksPat := rfl
@[simp] theorem endSleep_ksSlot (n : Nat) : (s.endSleep n).ksSlot = s.ksSlot := rfl
@[simp] theorem endSleep_drv1 (n : Nat) : (s.endSleep n).drv1 = s.drv1 := rfl
@[simp] theorem endSleep_drv2 (n : Nat) : (s.endSleep n).drv2 = s.drv2 := rfl
@[simp] theorem endSleep_scPhase (n : Nat) : (s.endSleep n).scPhase = s.scPhase := rfl
@[simp] theorem endSleep_ksPhase (n : Nat) : (s.endSleep n).ksPhase = s.ksPhase := rfl
@[simp] theorem endSleep_lmpState (n : Nat) : (s.endSleep n).lmpState = s.lmpState := rfl
@[simp] theorem endSleep_lmpIdx (n : Nat) : (s.endSleep n).lmpIdx = s.lmpIdx := rfl
@[simp] theorem endSleep_scMi (n : Nat) : (s.endSleep n).scMi = s.scMi := rfl
@[simp] theorem endSleep_stNomatch (n : Nat) : (s.endSleep n).stNomatch = s.stNomatch := rfl
@[simp] theorem endSleep_stBusTimeout (n : Nat) : (s.endSleep n).stBusTimeout = s.stBusTimeout := rfl
@[simp] theorem endSleep_stDone (n : Nat) : (s.endSleep n).stDone = s.stDone := rfl
@[simp] theorem endSleep_led (n : Nat) : (s.endSleep n).led = s.led := rfl
@[simp] theorem endSleep_kpRow (n : Nat) : (s.endSleep n).kpRow = s.kpRow := rfl
@[simp] theorem endSleep_dlyReq (n : Nat) : (s.endSleep n).dlyReq = false := rfl
@[simp] theorem endSleep_dlyLen (n : Nat) : (s.endSleep n).dlyLen = s.dlyLen := rfl
@[simp] theorem endSleep_window (n : Nat) : (s.endSleep n).window = s.window := rfl
@[simp] theorem endSleep_cols (n : Nat) : (s.endSleep n).cols = s.cols := rfl
@[simp] theorem endSleep_keys (n : Nat) : (s.endSleep n).keys = s.keys := rfl
@[simp] theorem endSleep_line1 (n : Nat) : (s.endSleep n).line1 = s.line1 := rfl
@[simp] theorem endSleep_line2 (n : Nat) : (s.endSleep n).line2 = s.line2 := rfl
@[simp] theorem endSleep_rst (n : Nat) : (s.endSleep n).rst = s.rst := rfl
@[simp] theorem endSleep_rstIn (n : Nat) : (s.endSleep n).rstIn = s.rstIn := rfl
@[simp] theorem endSleep_cfg (n : Nat) : (s.endSleep n).cfg = s.cfg := rfl
@[simp] theorem endSleep_events (n : Nat) : (s.endSleep n).events = s.events := rfl
@[simp] theorem endSleep_time (n : Nat) : (s.endSleep n).time = s.time + n := rfl
@[simp] theorem endSleep_ret (n : Nat) : (s.endSleep n).ret = s.ret := rfl
@[simp] theorem endSleep_slot (n : Nat) : (s.endSleep n).slot = s.slot := rfl
@[simp] theorem endSleep_drv (n : Nat) (c : Chan) : (s.endSleep n).drv c = s.drv c := by cases c <;> rfl
@[simp] theorem endSleep_line (n : Nat) (c : Chan) : (s.endSleep n).line c = s.line c := by cases c <;> rfl

/-! ### driveRows -/

@[simp] theorem driveRows_dig (v : Nibble) : (s.driveRows v).dig = s.dig := rfl
@[simp] theorem driveRows_enc (v : Nibble) : (s.driveRows v).enc = s.enc := rfl
@[simp] theorem driveRows_mw (v : Nibble) : (s.driveRows v).mw = s.mw := rfl
@[simp] theorem driveRows_cnt (v : Nibble) : (s.driveRows v).cnt = s.cnt := rfl
@[simp] theorem driveRows_pos (v : Nibble) : (s.driveRows v).pos = s.pos := rfl
@[simp] theorem driveRows_rem (v : Nibble) : (s.driveRows v).rem = s.rem := rfl
@[simp] theorem driveRows_ksRow (v : Nibble) : (s.driveRows v).ksRow = s.ksRow := rfl
@[simp] theorem driveRows_ksPat (v : Nibble) : (s.driveRows v).ksPat = s.ksPat := rfl
@[simp] theorem driveRows_ksSlot (v : Nibble) : (s.driveRows v).ksSlot = s.ksSlot := rfl
@[simp] theorem driveRows_drv1 (v : Nibble) : (s.driveRows v).drv1 = s.drv1 := rfl
@[simp] theorem driveRows_drv2 (v : Nibble) : (s.driveRows v).drv2 = s.drv2 := rfl
@[simp] theorem driveRows_scPhase (v : Nibble) : (s.driveRows v).scPhase = s.scPhase := rfl
@[simp] theorem driveRows_ksPhase (v : Nibble) : (s.driveRows v).ksPhase = s.ksPhase := rfl
@[simp] theorem driveRows_lmpState (v : Nibble) : (s.driveRows v).lmpState = s.lmpState := rfl
@[simp] theorem driveRows_lmpIdx (v : Nibble) : (s.driveRows v).lmpIdx = s.lmpIdx := rfl
@[simp] theorem driveRows_scMi (v : Nibble) : (s.driveRows v).scMi = s.scMi := rfl
@[simp] theorem driveRows_stNomatch (v : Nibble) : (s.driveRows v).stNomatch = s.stNomatch := rfl
@[simp] theorem driveRows_stBusTimeout (v : Nibble) : (s.driveRows v).stBusTimeout = s.stBusTimeout := rfl
@[simp] theorem driveRows_stDone (v : Nibble) : (s.driveRows v).stDone = s.stDone := rfl
@[simp] theorem driveRows_led (v : Nibble) : (s.driveRows v).led = s.led := rfl
@[simp] theorem driveRows_kpRow (v : Nibble) : (s.driveRows v).kpRow = v := rfl
@[simp] theorem driveRows_dlyReq (v : Nibble) : (s.driveRows v).dlyReq = s.dlyReq := rfl
@[simp] theorem driveRows_dlyLen (v : Nibble) : (s.driveRows v).dlyLen = s.dlyLen := rfl
@[simp] theorem driveRows_window (v : Nibble) : (s.driveRows v).window = s.window := rfl
@[simp] theorem driveRows_cols (v : Nibble) : (s.driveRows v).cols = s.cols := rfl
@[simp] theorem driveRows_keys (v : Nibble) : (s.driveRows v).keys = s.keys := rfl
@[simp] theorem driveRows_line1 (v : Nibble) : (s.driveRows v).line1 = s.line1 := rfl
@[simp] theorem driveRows_line2 (v : Nibble) : (s.driveRows v).line2 = s.line2 := rfl
@[simp] theorem driveRows_rst (v : Nibble) : (s.driveRows v).rst = s.rst := rfl
@[simp] theorem driveRows_rstIn (v : Nibble) : (s.driveRows v).rstIn = s.rstIn := rfl
@[simp] theorem driveRows_cfg (v : Nibble) : (s.driveRows v).cfg = s.cfg := rfl
@[simp] theorem driveRows_events (v : Nibble) : (s.driveRows v).events = s.events ++ [.row v] := rfl
@[simp] theorem driveRows_time (v : Nibble) : (s.driveRows v).time = s.time := rfl
@[simp] theorem driveRows_ret (v : Nibble) : (s.driveRows v).ret = s.ret := rfl
@[simp] theorem driveRows_slot (v : Nibble) : (s.driveRows v).slot = s.slot := rfl
@[simp] theorem driveRows_drv (v : Nibble) (c : Chan) : (s.driveRows v).drv c = s.drv c := by cases c <;> rfl
@[simp] theorem driveRows_line (v : Nibble) (c : Chan) : (s.driveRows v).line c = s.line c := by cases c <;> rfl

/-! ### driveLed -/

@[simp] theorem driveLed_dig (b : Bool) : (s.driveLed b).dig = s.dig := rfl
@[simp] theorem driveLed_enc (b : Bool) : (s.driveLed b).enc = s.enc := rfl
@[simp] theorem driveLed_mw (b : Bool) : (s.driveLed b).mw = s.mw := rfl
@[simp] theorem driveLed_cnt (b : Bool) : (s.driveLed b).cnt = s.cnt := rfl
@[simp] theorem driveLed_pos (b : Bool) : (s.driveLed b).pos = s.pos := rfl
@[simp] theorem driveLed_rem (b : Bool) : (s.driveLed b).rem = s.rem := rfl
@[simp] theorem driveLed_ksRow (b : Bool) : (s.driveLed b).ksRow = s.ksRow := rfl
@[simp] theorem driveLed_ksPat (b : Bool) : (s.driveLed b).ksPat = s.ksPat := rfl
@[simp] theorem driveLed_ksSlot (b : Bool) : (s.driveLed b).ksSlot = s.ksSlot := rfl
@[simp] theorem driveLed_drv1 (b : Bool) : (s.driveLed b).drv1 = s.drv1 := rfl
@[simp] theorem driveLed_drv2 (b : Bool) : (s.driveLed b).drv2 = s.drv2 := rfl
@[simp] theorem driveLed_scPhase (b : Bool) : (s.driveLed b).scPhase = s.scPhase := rfl
@[simp] theorem driveLed_ksPhase (b : Bool) : (s.driveLed b).ksPhase = s.ksPhase := rfl
@[simp] theorem driveLed_lmpState (b : Bool) : (s.driveLed b).lmpState = s.lmpState := rfl
@[simp] theorem driveLed_lmpIdx (b : Bool) : (s.driveLed b).lmpIdx = s.lmpIdx := rfl
@[simp] theorem driveLed_scMi (b : Bool) : (s.driveLed b).scMi = s.scMi := rfl
@[simp] theorem driveLed_stNomatch (b : Bool) : (s.driveLed b).stNomatch = s.stNomatch := rfl
@[simp] theorem driveLed_stBusTimeout (b : Bool) : (s.driveLed b).stBusTimeout = s.stBusTimeout := rfl
@[simp] theorem driveLed_stDone (b : Bool) : (s.driveLed b).stDone = s.stDone := rfl
@[simp] theorem driveLed_led (b : Bool) : (s.driveLed b).led = b := rfl
@[simp] theorem driveLed_kpRow (b : Bool) : (s.driveLed b).kpRow = s.kpRow := rfl
@[simp] theorem driveLed_dlyReq (b : Bool) : (s.driveLed b).dlyReq = s.dlyReq := rfl
@[simp] theorem driveLed_dlyLen (b : Bool) : (s.driveLed b).dlyLen = s.dlyLen := rfl
@[simp] theorem driveLed_window (b : Bool) : (s.driveLed b).window = s.window := rfl
@[simp] theorem driveLed_cols (b : Bool) : (s.driveLed b).cols = s.cols := rfl
@[simp] theorem driveLed_keys (b : Bool) : (s.driveLed b).keys = s.keys := rfl
@[simp] theorem driveLed_line1 (b : Bool) : (s.driveLed b).line1 = s.line1 := rfl
@[simp] theorem driveLed_line2 (b : Bool) : (s.driveLed b).line2 = s.line2 := rfl
@[simp] theorem driveLed_rst (b : Bool) : (s.driveLed b).rst = s.rst := rfl
@[simp] theorem driveLed_rstIn (b : Bool) : (s.driveLed b).rstIn = s.rstIn := rfl
@[simp] theorem driveLed_cfg (b : Bool) : (s.driveLed b).cfg = s.cfg := rfl
@[simp] theorem driveLed_events (b : Bool) : (s.driveLed b).events = s.events ++ [.led b] := rfl
@[simp] theorem driveLed_time (b : Bool) : (s.driveLed b).time = s.time := rfl
@[simp] theorem driveLed_ret (b : Bool) : (s.driveLed b).ret = s.ret := rfl
@[simp] theorem driveLed_slot (b : Bool) : (s.driveLed b).slot = s.slot := rfl
@[simp] theorem driveLed_drv (b : Bool) (c : Chan) : (s.driveLed b).drv c = s.drv c := by cases c <;> rfl
@[simp] theorem driveLed_line (b : Bool) (c : Chan) : (s.driveLed b).line c = s.line c := by cases c <;> rfl

/-! ### setNomatch -/

@[simp] theorem setNomatch_dig : (s.setNomatch).dig = s.dig := rfl
@[simp] theorem setNomatch_enc : (s.setNomatch).enc = s.enc := rfl
@[simp] theorem setNomatch_mw : (s.setNomatch).mw = s.mw := rfl
@[simp] theorem setNomatch_cnt : (s.setNomatch).cnt = s.cnt := rfl
@[simp] theorem setNomatch_pos : (s.setNomatch).pos = s.pos := rfl
@[simp] theorem setNomatch_rem : (s.setNomatch).rem = s.rem := rfl
@[simp] theorem setNomatch_ksRow : (s.setNomatch).ksRow = s.ksRow := rfl
@[simp] theorem setNomatch_ksPat : (s.setNomatch).ksPat = s.ksPat := rfl
@[simp] theorem setNomatch_ksSlot : (s.setNomatch).ksSlot = s.ksSlot := rfl
@[simp] theorem setNomatch_drv1 : (s.setNomatch).drv1 = s.drv1 := rfl
@[simp] theorem setNomatch_drv2 : (s.setNomatch).drv2 = s.drv2 := rfl
@[simp] theorem setNomatch_scPhase : (s.setNomatch).scPhase = s.scPhase := rfl
@[simp] theorem setNomatch_ksPhase : (s.setNomatch).ksPhase = s.ksPhase := rfl
@[simp] theorem setNomatch_lmpState : (s.setNomatch).lmpState = s.lmpState := rfl
@[simp] theorem setNomatch_lmpIdx : (s.setNomatch).lmpIdx = s.lmpIdx := rfl
@[simp] theorem setNomatch_scMi : (s.setNomatch).scMi = s.scMi := rfl
@[simp] theorem setNomatch_stNomatch : (s.setNomatch).stNomatch = true := rfl
@[simp] theorem setNomatch_stBusTimeout : (s.setNomatch).stBusTimeout = s.stBusTimeout := rfl
@[simp] theorem setNomatch_stDone : (s.setNomatch).stDone = s.stDone := rfl
@[simp] theorem setNomatch_led : (s.setNomatch).led = s.led := rfl
@[simp] theorem setNomatch_kpRow : (s.setNomatch).kpRow = s.kpRow := rfl
@[simp] theorem setNomatch_dlyReq : (s.setNomatch).dlyReq = s.dlyReq := rfl
@[simp] theorem setNomatch_dlyLen : (s.setNomatch).dlyLen = s.dlyLen := rfl
@[simp] theorem setNomatch_window : (s.setNomatch).window = s.window := rfl
@[simp] theorem setNomatch_cols : (s.setNomatch).cols = s.cols := rfl
@[simp] theorem setNomatch_keys : (s.setNomatch).keys = s.keys := rfl
@[simp] theorem setNomatch_line1 : (s.setNomatch).line1 = s.line1 := rfl
@[simp] theorem setNomatch_line2 : (s.setNomatch).line2 = s.line2 := rfl
@[simp] theorem setNomatch_rst : (s.setNomatch).rst = s.rst := rfl
@[simp] theorem setNomatch_rstIn : (s.setNomatch).rstIn = s.rstIn := rfl
@[simp] theorem setNomatch_cfg : (s.setNomatch).cfg = s.cfg := rfl
@[simp] theorem setNomatch_events : (s.setNomatch).events = s.events := rfl
@[simp] theorem setNomatch_time : (s.setNomatch).time = s.time := rfl
@[simp] theorem setNomatch_ret : (s.setNomatch).ret = s.ret := rfl
@[simp] theorem setNomatch_slot : (s.setNomatch).slot = s.slot := rfl
@[simp] theorem setNomatch_drv (c : Chan) : (s.setNomatch).drv c = s.drv c := by cases c <;> rfl
@[simp] theorem setNomatch_line (c : Chan) : (s.setNomatch).line c = s.line c := by cases c <;> rfl

/-! ### setBusTimeout -/

@[simp] theorem setBusTimeout_dig : (s.setBusTimeout).dig = s.dig := rfl
@[simp] theorem setBusTimeout_enc : (s.setBusTimeout).enc = s.enc := rfl
@[simp] theorem setBusTimeout_mw : (s.setBusTimeout).mw = s.mw := rfl
@[simp] theorem setBusTimeout_cnt : (s.setBusTimeout).cnt = s.cnt := rfl
@[simp] theorem setBusTimeout_pos : (s.setBusTimeout).pos = s.pos := rfl
@[simp] theorem setBusTimeout_rem : (s.setBusTimeout).rem = s.rem := rfl
@[simp] theorem setBusTimeout_ksRow : (s.setBusTimeout).ksRow = s.ksRow := rfl
@[simp] theorem setBusTimeout_ksPat : (s.setBusTimeout).ksPat = s.ksPat := rfl
@[simp] theorem setBusTimeout_ksSlot : (s.setBusTimeout).ksSlot = s.ksSlot := rfl
@[simp] theorem setBusTimeout_drv1 : (s.setBusTimeout).drv1 = s.drv1 := rfl
@[simp] theorem setBusTimeout_drv2 : (s.setBusTimeout).drv2 = s.drv2 := rfl
@[simp] theorem setBusTimeout_scPhase : (s.setBusTimeout).scPhase = s.scPhase := rfl
@[simp] theorem setBusTimeout_ksPhase : (s.setBusTimeout).ksPhase = s.ksPhase := rfl
@[simp] theorem setBusTimeout_lmpState : (s.setBusTimeout).lmpState = s.lmpState := rfl
@[simp] theorem setBusTimeout_lmpIdx : (s.setBusTimeout).lmpIdx = s.lmpIdx := rfl
@[simp] theorem setBusTimeout_scMi : (s.setBusTimeout).scMi = s.scMi := rfl
@[simp] theorem setBusTimeout_stNomatch : (s.setBusTimeout).stNomatch = s.stNomatch := rfl
@[simp] theorem setBusTimeout_stBusTimeout : (s.setBusTimeout).stBusTimeout = true := rfl
@[simp] theorem setBusTimeout_stDone : (s.setBusTimeout).stDone = s.stDone := rfl
@[simp] theorem setBusTimeout_led : (s.setBusTimeout).led = s.led := rfl
@[simp] theorem setBusTimeout_kpRow : (s.setBusTimeout).kpRow = s.kpRow := rfl
@[simp] theorem setBusTimeout_dlyReq : (s.setBusTimeout).dlyReq = s.dlyReq := rfl
@[simp] theorem setBusTimeout_dlyLen : (s.setBusTimeout).dlyLen = s.dlyLen := rfl
@[simp] theorem setBusTimeout_window : (s.setBusTimeout).window = s.window := rfl
@[simp] theorem setBusTimeout_cols : (s.setBusTimeout).cols = s.cols := rfl
@[simp] theorem setBusTimeout_keys : (s.setBusTimeout).keys = s.keys := rfl
@[simp] theorem setBusTimeout_line1 : (s.setBusTimeout).line1 = s.line1 := rfl
@[simp] theorem setBusTimeout_line2 : (s.setBusTimeout).line2 = s.line2 := rfl
@[simp] theorem setBusTimeout_rst : (s.setBusTimeout).rst = s.rst := rfl
@[simp] theorem setBusTimeout_rstIn : (s.setBusTimeout).rstIn = s.rstIn := rfl
@[simp] theorem setBusTimeout_cfg : (s.setBusTimeout).cfg = s.cfg := rfl
@[simp] theorem setBusTimeout_events : (s.setBusTimeout).events = s.events := rfl
@[simp] theorem setBusTimeout_time : (s.setBusTimeout).time = s.time := rfl
@[simp] theorem setBusTimeout_ret : (s.setBusTimeout).ret = s.ret := rfl
@[simp] theorem setBusTimeout_slot : (s.setBusTimeout).slot = s.slot := rfl
@[simp] theorem setBusTimeout_drv (c : Chan) : (s.setBusTimeout).drv c = s.drv c := by cases c <;> rfl
@[simp] theorem setBusTimeout_line (c : Chan) : (s.setBusTimeout).line c = s.line c := by cases c <;> rfl

/-! ### setDone -/

@[simp] theorem setDone_dig : (s.setDone).dig = s.dig := rfl
@[simp] theorem setDone_enc : (s.setDone).enc = s.enc := rfl
@[simp] theorem setDone_mw : (s.setDone).mw = s.mw := rfl
@[simp] theorem setDone_cnt : (s.setDone).cnt = s.cnt := rfl
@[simp] theorem setDone_pos : (s.setDone).pos = s.pos := rfl
@[simp] theorem setDone_rem : (s.setDone).rem = s.rem := rfl
@[simp] theorem setDone_ksRow : (s.setDone).ksRow = s.ksRow := rfl
@[simp] theorem setDone_ksPat : (s.setDone).ksPat = s.ksPat := rfl
@[simp] theorem setDone_ksSlot : (s.setDone).ksSlot = s.ksSlot := rfl
@[simp] theorem setDone_drv1 : (s.setDone).drv1 = s.drv1 := rfl
@[simp] theorem setDone_drv2 : (s.setDone).drv2 = s.drv2 := rfl
@[simp] theorem setDone_scPhase : (s.setDone).scPhase = s.scPhase := rfl
@[simp] theorem setDone_ksPhase : (s.setDone).ksPhase = s.ksPhase := rfl
@[simp] theorem setDone_lmpState : (s.setDone).lmpState = s.lmpState := rfl
@[simp] theorem setDone_lmpIdx : (s.setDone).lmpIdx = s.lmpIdx := rfl
@[simp] theorem setDone_scMi : (s.setDone).scMi = s.scMi := rfl
@[simp] theorem setDone_stNomatch : (s.setDone).stNomatch = s.stNomatch := rfl
@[simp] theorem setDone_stBusTimeout : (s.setDone).stBusTimeout = s.stBusTimeout := rfl
@[simp] theorem setDone_stDone : (s.setDone).stDone = true := rfl
@[simp] theorem setDone_led : (s.setDone).led = s.led := rfl
@[simp] theorem setDone_kpRow : (s.setDone).kpRow = s.kpRow := rfl
@[simp] theorem setDone_dlyReq : (s.setDone).dlyReq = s.dlyReq := rfl
@[simp] theorem setDone_dlyLen : (s.setDone).dlyLen = s.dlyLen := rfl
@[simp] theorem setDone_window : (s.setDone).window = s.window := rfl
@[simp] theorem setDone_cols : (s.setDone).cols = s.cols := rfl
@[simp] theorem setDone_keys : (s.setDone).keys = s.keys := rfl
@[simp] theorem setDone_line1 : (s.setDone).line1 = s.line1 := rfl
@[simp] theorem setDone_line2 : (s.setDone).line2 = s.line2 := rfl
@[simp] theorem setDone_rst : (s.setDone).rst = s.rst := rfl
@[simp] theorem setDone_rstIn : (s.setDone).rstIn = s.rstIn := rfl
@[simp] theorem setDone_cfg : (s.setDone).cfg = s.cfg := rfl
@[simp] theorem setDone_events : (s.setDone).events = s.events := rfl
@[simp] theorem setDone_time : (s.setDone).time = s.time := rfl
@[simp] theorem setDone_ret : (s.setDone).ret = s.ret := rfl
@[simp] theorem setDone_slot : (s.setDone).slot = s.slot := rfl
@[simp] theorem setDone_drv (c : Chan) : (s.setDone).drv c = s.drv c := by cases c <;> rfl
@[simp] theorem setDone_line (c : Chan) : (s.setDone).line c = s.line c := by cases c <;> rfl

/-! ### halt -/

@[simp] theorem halt_dig : (s.halt).dig = s.dig := rfl
@[simp] theorem halt_enc : (s.halt).enc = s.enc := rfl
@[simp] theorem halt_mw : (s.halt).mw = s.mw := rfl
@[simp] theorem halt_cnt : (s.halt).cnt = s.cnt := rfl
@[simp] theorem halt_pos : (s.halt).pos = s.pos := rfl
@[simp] theorem halt_rem : (s.halt).rem = s.rem := rfl
@[simp] theorem halt_ksRow : (s.halt).ksRow = s.ksRow := rfl
@[simp] theorem halt_ksPat : (s.halt).ksPat = s.ksPat := rfl
@[simp] theorem halt_ksSlot : (s.halt).ksSlot = s.ksSlot := rfl
@[simp] theorem halt_drv1 : (s.halt).drv1 = s.drv1 := rfl
@[simp] theorem halt_drv2 : (s.halt).drv2 = s.drv2 := rfl
@[simp] theorem halt_scPhase : (s.halt).scPhase = .halt := rfl
@[simp] theorem halt_ksPhase : (s.halt).ksPhase = s.ksPhase := rfl
@[simp] theorem halt_lmpState : (s.halt).lmpState = s.lmpState := rfl
@[simp] theorem halt_lmpIdx : (s.halt).lmpIdx = s.lmpIdx := rfl
@[simp] theorem halt_scMi : (s.halt).scMi = s.scMi := rfl
@[simp] theorem halt_stNomatch : (s.halt).stNomatch = s.stNomatch := rfl
@[simp] theorem halt_stBusTimeout : (s.halt).stBusTimeout = s.stBusTimeout := rfl
@[simp] theorem halt_stDone : (s.halt).stDone = s.stDone := rfl
@[simp] theorem halt_led : (s.halt).led = s.led := rfl
@[simp] theorem halt_kpRow : (s.halt).kpRow = s.kpRow := rfl
@[simp] theorem halt_dlyReq : (s.halt).dlyReq = s.dlyReq := rfl
@[simp] theorem halt_dlyLen : (s.halt).dlyLen = s.dlyLen := rfl
@[simp] theorem halt_window : (s.halt).window = s.window := rfl
@[simp] theorem halt_cols : (s.halt).cols = s.cols := rfl
@[simp] theorem halt_keys : (s.halt).keys = s.keys := rfl
@[simp] theorem halt_line1 : (s.halt).line1 = s.line1 := rfl
@[simp] theorem halt_line2 : (s.halt).line2 = s.line2 := rfl
@[simp] theorem halt_rst : (s.halt).rst = s.rst := rfl
@[simp] theorem halt_rstIn : (s.halt).rstIn = s.rstIn := rfl
@[simp] theorem halt_cfg : (s.halt).cfg = s.cfg := rfl
@[simp] theorem halt_events : (s.halt).events = s.events := rfl
@[simp] theorem halt_time : (s.halt).time = s.time := rfl
@[simp] theorem halt_ret : (s.halt).ret = s.ret := rfl
@[simp] theorem halt_slot : (s.halt).slot = s.slot := rfl
@[simp] theorem halt_drv (c : Chan) : (s.halt).drv c = s.drv c := by cases c <;> rfl
@[simp] theorem halt_line (c : Chan) : (s.halt).line c = s.line c := by cases c <;> rfl

/-! ### returnDigit -/

@[simp] theorem returnDigit_dig (d : Nibble) : (s.returnDigit d).dig = s.dig := rfl
@[simp] theorem returnDigit_enc (d : Nibble) : (s.returnDigit d).enc = s.enc := rfl
@[simp] theorem returnDigit_mw (d : Nibble) : (s.returnDigit d).mw = s.mw := rfl
@[simp] theorem returnDigit_cnt (d : Nibble) : (s.returnDigit d).cnt = s.cnt := rfl
@[simp] theorem returnDigit_pos (d : Nibble) : (s.returnDigit d).pos = s.pos := rfl
@[simp] theorem returnDigit_rem (d : Nibble) : (s.returnDigit d).rem = s.rem := rfl
@[simp] theorem returnDigit_ksRow (d : Nibble) : (s.returnDigit d).ksRow = s.ksRow := rfl
@[simp] theorem returnDigit_ksPat (d : Nibble) : (s.returnDigit d).ksPat = s.ksPat := rfl
@[simp] theorem returnDigit_ksSlot (d : Nibble) : (s.returnDigit d).ksSlot = s.ksSlot := rfl
@[simp] theorem returnDigit_drv1 (d : Nibble) : (s.returnDigit d).drv1 = s.drv1 := rfl
@[simp] theorem returnDigit_drv2 (d : Nibble) : (s.returnDigit d).drv2 = s.drv2 := rfl
@[simp] theorem returnDigit_scPhase (d : Nibble) : (s.returnDigit d).scPhase = s.scPhase := rfl
@[simp] theorem returnDigit_ksPhase (d : Nibble) : (s.returnDigit d).ksPhase = s.ksPhase := rfl
@[simp] theorem returnDigit_lmpState (d : Nibble) : (s.returnDigit d).lmpState = s.lmpState := rfl
@[simp] theorem returnDigit_lmpIdx (d : Nibble) : (s.returnDigit d).lmpIdx = s.lmpIdx := rfl
@[simp] theorem returnDigit_scMi (d : Nibble) : (s.returnDigit d).scMi = s.scMi := rfl
@[simp] theorem returnDigit_stNomatch (d : Nibble) : (s.returnDigit d).stNomatch = s.stNomatch := rfl
@[simp] theorem returnDigit_stBusTimeout (d : Nibble) : (s.returnDigit d).stBusTimeout = s.stBusTimeout := rfl
@[simp] theorem returnDigit_stDone (d : Nibble) : (s.returnDigit d).stDone = s.stDone := rfl
@[simp] theorem returnDigit_led (d : Nibble) : (s.returnDigit d).led = s.led := rfl
@[simp] theorem returnDigit_kpRow (d : Nibble) : (s.returnDigit d).kpRow = s.kpRow := rfl
@[simp] theorem returnDigit_dlyReq (d : Nibble) : (s.returnDigit d).dlyReq = s.dlyReq := rfl
@[simp] theorem returnDigit_dlyLen (d : Nibble) : (s.returnDigit d).dlyLen = s.dlyLen := rfl
@[simp] theorem returnDigit_window (d : Nibble) : (s.returnDigit d).window = s.window := rfl
@[simp] theorem returnDigit_cols (d : Nibble) : (s.returnDigit d).cols = s.cols := rfl
@[simp] theorem returnDigit_keys (d : Nibble) : (s.returnDigit d).keys = s.keys := rfl
@[simp] theorem returnDigit_line1 (d : Nibble) : (s.returnDigit d).line1 = s.line1 := rfl
@[simp] theorem returnDigit_line2 (d : Nibble) : (s.returnDigit d).line2 = s.line2 := rfl
@[simp] theorem returnDigit_rst (d : Nibble) : (s.returnDigit d).rst = s.rst := rfl
@[simp] theorem returnDigit_rstIn (d : Nibble) : (s.returnDigit d).rstIn = s.rstIn := rfl
@[simp] theorem returnDigit_cfg (d : Nibble) : (s.returnDigit d).cfg = s.cfg := rfl
@[simp] theorem returnDigit_events (d : Nibble) : (s.returnDigit d).events = s.events := rfl
@[simp] theorem returnDigit_time (d : Nibble) : (s.returnDigit d).time = s.time := rfl
@[simp] theorem returnDigit_ret (d : Nibble) : (s.returnDigit d).ret = .digit d := rfl
@[simp] theorem returnDigit_slot (d : Nibble) : (s.returnDigit d).slot = s.slot := rfl
@[simp] theorem returnDigit_drv (d : Nibble) (c : Chan) : (s.returnDigit d).drv c = s.drv c := by cases c <;> rfl
@[simp] theorem returnDigit_line (d : Nibble) (c : Chan) : (s.returnDigit d).line c = s.line c := by cases c <;> rfl

/-! ### returnWord -/

@[simp] theorem returnWord_dig (w : Byte) : (s.returnWord w).dig = s.dig := rfl
@[simp] theorem returnWord_enc (w : Byte) : (s.returnWord w).enc = s.enc := rfl
@[simp] theorem returnWord_mw (w : Byte) : (s.returnWord w).mw = s.mw := rfl
@[simp] theorem returnWord_cnt (w : Byte) : (s.returnWord w).cnt = s.cnt := rfl
@[simp] theorem returnWord_pos (w : Byte) : (s.returnWord w).pos = s.pos := rfl
@[simp] theorem returnWord_rem (w : Byte) : (s.returnWord w).rem = s.rem := rfl
@[simp] theorem returnWord_ksRow (w : Byte) : (s.returnWord w).ksRow = s.ksRow := rfl
@[simp] theorem returnWord_ksPat (w : Byte) : (s.returnWord w).ksPat = s.ksPat := rfl
@[simp] theorem returnWord_ksSlot (w : Byte) : (s.returnWord w).ksSlot = s.ksSlot := rfl
@[simp] theorem returnWord_drv1 (w : Byte) : (s.returnWord w).drv1 = s.drv1 := rfl
@[simp] theorem returnWord_drv2 (w : Byte) : (s.returnWord w).drv2 = s.drv2 := rfl
@[simp] theorem returnWord_scPhase (w : Byte) : (s.returnWord w).scPhase = s.scPhase := rfl
@[simp] theorem returnWord_ksPhase (w : Byte) : (s.returnWord w).ksPhase = s.ksPhase := rfl
@[simp] theorem returnWord_lmpState (w : Byte) : (s.returnWord w).lmpState = s.lmpState := rfl
@[simp] theorem returnWord_lmpIdx (w : Byte) : (s.returnWord w).lmpIdx = s.lmpIdx := rfl
@[simp] theorem returnWord_scMi (w : Byte) : (s.returnWord w).scMi = s.scMi := rfl
@[simp] theorem returnWord_stNomatch (w : Byte) : (s.returnWord w).stNomatch = s.stNomatch := rfl
@[simp] theorem returnWord_stBusTimeout (w : Byte) : (s.returnWord w).stBusTimeout = s.stBusTimeout := rfl
@[simp] theorem returnWord_stDone (w : Byte) : (s.returnWord w).stDone = s.stDone := rfl
@[simp] theorem returnWord_led (w : Byte) : (s.returnWord w).led = s.led := rfl
@[simp] theorem returnWord_kpRow (w : Byte) : (s.returnWord w).kpRow = s.kpRow := rfl
@[simp] theorem returnWord_dlyReq (w : Byte) : (s.returnWord w).dlyReq = s.dlyReq := rfl
@[simp] theorem returnWord_dlyLen (w : Byte) : (s.returnWord w).dlyLen = s.dlyLen := rfl
@[simp] theorem returnWord_window (w : Byte) : (s.returnWord w).window = s.window := rfl
@[simp] theorem returnWord_cols (w : Byte) : (s.returnWord w).cols = s.cols := rfl
@[simp] theorem returnWord_keys (w : Byte) : (s.returnWord w).keys = s.keys := rfl
@[simp] theorem returnWord_line1 (w : Byte) : (s.returnWord w).line1 = s.line1 := rfl
@[simp] theorem returnWord_line2 (w : Byte) : (s.returnWord w).line2 = s.line2 := rfl
@[simp] theorem returnWord_rst (w : Byte) : (s.returnWord w).rst = s.rst := rfl
@[simp] theorem returnWord_rstIn (w : Byte) : (s.returnWord w).rstIn = s.rstIn := rfl
@[simp] theorem returnWord_cfg (w : Byte) : (s.returnWord w).cfg = s.cfg := rfl
@[simp] theorem returnWord_events (w : Byte) : (s.returnWord w).events = s.events := rfl
@[simp] theorem returnWord_time (w : Byte) : (s.returnWord w).time = s.time := rfl
@[simp] theorem returnWord_ret (w : Byte) : (s.returnWord w).ret = .word w := rfl
@[simp] theorem returnWord_slot (w : Byte) : (s.returnWord w).slot = s.slot := rfl
@[simp] theorem returnWord_drv (w : Byte) (c : Chan) : (s.returnWord w).drv c = s.drv c := by cases c <;> rfl
@[simp] theorem returnWord_line (w : Byte) (c : Chan) : (s.returnWord w).line c = s.line c := by cases c <;> rfl

/-! ### setSc -/

@[simp] theorem setSc_dig (ph : ScPhase) : (setSc ph s).dig = s.dig := rfl
@[simp] theorem setSc_enc (ph : ScPhase) : (setSc ph s).enc = s.enc := rfl
@[simp] theorem setSc_mw (ph : ScPhase) : (setSc ph s).mw = s.mw := rfl
@[simp] theorem setSc_cnt (ph : ScPhase) : (setSc ph s).cnt = s.cnt := rfl
@[simp] theorem setSc_pos (ph : ScPhase) : (setSc ph s).pos = s.pos := rfl
@[simp] theorem setSc_rem (ph : ScPhase) : (setSc ph s).rem = s.rem := rfl
@[simp] theorem setSc_ksRow (ph : ScPhase) : (setSc ph s).ksRow = s.ksRow := rfl
@[simp] theorem setSc_ksPat (ph : ScPhase) : (setSc ph s).ksPat = s.ksPat := rfl
@[simp] theorem setSc_ksSlot (ph : ScPhase) : (setSc ph s).ksSlot = s.ksSlot := rfl
@[simp] theorem setSc_drv1 (ph : ScPhase) : (setSc ph s).drv1 = s.drv1 := rfl
@[simp] theorem setSc_drv2 (ph : ScPhase) : (setSc ph s).drv2 = s.drv2 := rfl
@[simp] theorem setSc_scPhase (ph : ScPhase) : (setSc ph s).scPhase = ph := rfl
@[simp] theorem setSc_ksPhase (ph : ScPhase) : (setSc ph s).ksPhase = s.ksPhase := rfl
@[simp] theorem setSc_lmpState (ph : ScPhase) : (setSc ph s).lmpState = s.lmpState := rfl
@[simp] theorem setSc_lmpIdx (ph : ScPhase) : (setSc ph s).lmpIdx = s.lmpIdx := rfl
@[simp] theorem setSc_scMi (ph : ScPhase) : (setSc ph s).scMi = s.scMi := rfl
@[simp] theorem setSc_stNomatch (ph : ScPhase) : (setSc ph s).stNomatch = s.stNomatch := rfl
@[simp] theorem setSc_stBusTimeout (ph : ScPhase) : (setSc ph s).stBusTimeout = s.stBusTimeout := rfl
@[simp] theorem setSc_stDone (ph : ScPhase) : (setSc ph s).stDone = s.stDone := rfl
@[simp] theorem setSc_led (ph : ScPhase) : (setSc ph s).led = s.led := rfl
@[simp] theorem setSc_kpRow (ph : ScPhase) : (setSc ph s).kpRow = s.kpRow := rfl
@[simp] theorem setSc_dlyReq (ph : ScPhase) : (setSc ph s).dlyReq = s.dlyReq := rfl
@[simp] theorem setSc_dlyLen (ph : ScPhase) : (setSc ph s).dlyLen = s.dlyLen := rfl
@[simp] theorem setSc_window (ph : ScPhase) : (setSc ph s).window = s.window := rfl
@[simp] theorem setSc_cols (ph : ScPhase) : (setSc ph s).cols = s.cols := rfl
@[simp] theorem setSc_keys (ph : ScPhase) : (setSc ph s).keys = s.keys := rfl
@[simp] theorem setSc_line1 (ph : ScPhase) : (setSc ph s).line1 = s.line1 := rfl
@[simp] theorem setSc_line2 (ph : ScPhase) : (setSc ph s).line2 = s.line2 := rfl
@[simp] theorem setSc_rst (ph : ScPhase) : (setSc ph s).rst = s.rst := rfl
@[simp] theorem setSc_rstIn (ph : ScPhase) : (setSc ph s).rstIn = s.rstIn := rfl
@[simp] theorem setSc_cfg (ph : ScPhase) : (setSc ph s).cfg = s.cfg := rfl
@[simp] theorem setSc_events (ph : ScPhase) : (setSc ph s).events = s.events := rfl
@[simp] theorem setSc_time (ph : ScPhase) : (setSc ph s).time = s.time := rfl
@[simp] theorem setSc_ret (ph : ScPhase) : (setSc ph s).ret = s.ret := rfl
@[simp] theorem setSc_slot (ph : ScPhase) : (setSc ph s).slot = s.slot := rfl
@[simp] theorem setSc_drv (ph : ScPhase) (c : Chan) : (setSc ph s).drv c = s.drv c := by cases c <;> rfl
@[simp] theorem setSc_line (ph : ScPhase) (c : Chan) : (setSc ph s).line c = s.line c := by cases c <;> rfl

/-! ### setKs -/

@[simp] theorem setKs_dig (ph : KsPhase) : (setKs ph s).dig = s.dig := rfl
@[simp] theorem setKs_enc (ph : KsPhase) : (setKs ph s).enc = s.enc := rfl
@[simp] theorem setKs_mw (ph : KsPhase) : (setKs ph s).mw = s.mw := rfl
@[simp] theorem setKs_cnt (ph : KsPhase) : (setKs ph s).cnt = s.cnt := rfl
@[simp] theorem setKs_pos (ph : KsPhase) : (setKs ph s).pos = s.pos := rfl
@[simp] theorem setKs_rem (ph : KsPhase) : (setKs ph s).rem = s.rem := rfl
@[simp] theorem setKs_ksRow (ph : KsPhase) : (setKs ph s).ksRow = s.ksRow := rfl
@[simp] theorem setKs_ksPat (ph : KsPhase) : (setKs ph s).ksPat = s.ksPat := rfl
@[simp] theorem setKs_ksSlot (ph : KsPhase) : (setKs ph s).ksSlot = s.ksSlot := rfl
@[simp] theorem setKs_drv1 (ph : KsPhase) : (setKs ph s).drv1 = s.drv1 := rfl
@[simp] theorem setKs_drv2 (ph : KsPhase) : (setKs ph s).drv2 = s.drv2 := rfl
@[simp] theorem setKs_scPhase (ph : KsPhase) : (setKs ph s).scPhase = s.scPhase := rfl
@[simp] theorem setKs_ksPhase (ph : KsPhase) : (setKs ph s).ksPhase = ph := rfl
@[simp] theorem setKs_lmpState (ph : KsPhase) : (setKs ph s).lmpState = s.lmpState := rfl
@[simp] theorem setKs_lmpIdx (ph : KsPhase) : (setKs ph s).lmpIdx = s.lmpIdx := rfl
@[simp] theorem setKs_scMi (ph : KsPhase) : (setKs ph s).scMi = s.scMi := rfl
@[simp] theorem setKs_stNomatch (ph : KsPhase) : (setKs ph s).stNomatch = s.stNomatch := rfl
@[simp] theorem setKs_stBusTimeout (ph : KsPhase) : (setKs ph s).stBusTimeout = s.stBusTimeout := rfl
@[simp] theorem setKs_stDone (ph : KsPhase) : (setKs ph s).stDone = s.stDone := rfl
@[simp] theorem setKs_led (ph : KsPhase) : (setKs ph s).led = s.led := rfl
@[simp] theorem setKs_kpRow (ph : KsPhase) : (setKs ph s).kpRow = s.kpRow := rfl
@[simp] theorem setKs_dlyReq (ph : KsPhase) : (setKs ph s).dlyReq = s.dlyReq := rfl
@[simp] theorem setKs_dlyLen (ph : KsPhase) : (setKs ph s).dlyLen = s.dlyLen := rfl
@[simp] theorem setKs_window (ph : KsPhase) : (setKs ph s).window = s.window := rfl
@[simp] theorem setKs_cols (ph : KsPhase) : (setKs ph s).cols = s.cols := rfl
@[simp] theorem setKs_keys (ph : KsPhase) : (setKs ph s).keys = s.keys := rfl
@[simp] theorem setKs_line1 (ph : KsPhase) : (setKs ph s).line1 = s.line1 := rfl
@[simp] theorem setKs_line2 (ph : KsPhase) : (setKs ph s).line2 = s.line2 := rfl
@[simp] theorem setKs_rst (ph : KsPhase) : (setKs ph s).rst = s.rst := rfl
@[simp] theorem setKs_rstIn (ph : KsPhase) : (setKs ph s).rstIn = s.rstIn := rfl
@[simp] theorem setKs_cfg (ph : KsPhase) : (setKs ph s).cfg = s.cfg := rfl
@[simp] theorem setKs_events (ph : KsPhase) : (setKs ph s).events = s.events := rfl
@[simp] theorem setKs_time (ph : KsPhase) : (setKs ph s).time = s.time := rfl
@[simp] theorem setKs_ret (ph : KsPhase) : (setKs ph s).ret = s.ret := rfl
@[simp] theorem setKs_slot (ph : KsPhase) : (setKs ph s).slot = s.slot := rfl
@[simp] theorem setKs_drv (ph : KsPhase) (c : Chan) : (setKs ph s).drv c = s.drv c := by cases c <;> rfl
@[simp] theorem setKs_line (ph : KsPhase) (c : Chan) : (setKs ph s).line c = s.line c := by cases c <;> rfl

/-! ### setPlayer -/

@[simp] theorem setPlayer_dig (st : LmpState) : (setPlayer st s).dig = s.dig := rfl
@[simp] theorem setPlayer_enc (st : LmpState) : (setPlayer st s).enc = s.enc := rfl
@[simp] theorem setPlayer_mw (st : LmpState) : (setPlayer st s).mw = s.mw := rfl
@[simp] theorem setPlayer_cnt (st : LmpState) : (setPlayer st s).cnt = s.cnt := rfl
@[simp] theorem setPlayer_pos (st : LmpState) : (setPlayer st s).pos = s.pos := rfl
@[simp] theorem setPlayer_rem (st : LmpState) : (setPlayer st s).rem = s.rem := rfl
@[simp] theorem setPlayer_ksRow (st : LmpState) : (setPlayer st s).ksRow = s.ksRow := rfl
@[simp] theorem setPlayer_ksPat (st : LmpState) : (setPlayer st s).ksPat = s.ksPat := rfl
@[simp] theorem setPlayer_ksSlot (st : LmpState) : (setPlayer st s).ksSlot = s.ksSlot := rfl
@[simp] theorem setPlayer_drv1 (st : LmpState) : (setPlayer st s).drv1 = s.drv1 := rfl
@[simp] theorem setPlayer_drv2 (st : LmpState) : (setPlayer st s).drv2 = s.drv2 := rfl
@[simp] theorem setPlayer_scPhase (st : LmpState) : (setPlayer st s).scPhase = s.scPhase := rfl
@[simp] theorem setPlayer_ksPhase (st : LmpState) : (setPlayer st s).ksPhase = s.ksPhase := rfl
@[simp] theorem setPlayer_lmpState (st : LmpState) : (setPlayer st s).lmpState = st := rfl
@[simp] theorem setPlayer_lmpIdx (st : LmpState) : (setPlayer st s).lmpIdx = s.lmpIdx := rfl
@[simp] theorem setPlayer_scMi (st : LmpState) : (setPlayer st s).scMi = s.scMi := rfl
@[simp] theorem setPlayer_stNomatch (st : LmpState) : (setPlayer st s).stNomatch = s.stNomatch := rfl
@[simp] theorem setPlayer_stBusTimeout (st : LmpState) : (setPlayer st s).stBusTimeout = s.stBusTimeout := rfl
@[simp] theorem setPlayer_stDone (st : LmpState) : (setPlayer st s).stDone = s.stDone := rfl
@[simp] theorem setPlayer_led (st : LmpState) : (setPlayer st s).led = s.led := rfl
@[simp] theorem setPlayer_kpRow (st : LmpState) : (setPlayer st s).kpRow = s.kpRow := rfl
@[simp] theorem setPlayer_dlyReq (st : LmpState) : (setPlayer st s).dlyReq = s.dlyReq := rfl
@[simp] theorem setPlayer_dlyLen (st : LmpState) : (setPlayer st s).dlyLen = s.dlyLen := rfl
@[simp] theorem setPlayer_window (st : LmpState) : (setPlayer st s).window = s.window := rfl
@[simp] theorem setPlayer_cols (st : LmpState) : (setPlayer st s).cols = s.cols := rfl
@[simp] theorem setPlayer_keys (st : LmpState) : (setPlayer st s).keys = s.keys := rfl
@[simp] theorem setPlayer_line1 (st : LmpState) : (setPlayer st s).line1 = s.line1 := rfl
@[simp] theorem setPlayer_line2 (st : LmpState) : (setPlayer st s).line2 = s.line2 := rfl
@[simp] theorem setPlayer_rst (st : LmpState) : (setPlayer st s).rst = s.rst := rfl
@[simp] theorem setPlayer_rstIn (st : LmpState) : (setPlayer st s).rstIn = s.rstIn := rfl
@[simp] theorem setPlayer_cfg (st : LmpState) : (setPlayer st s).cfg = s.cfg := rfl
@[simp] theorem setPlayer_events (st : LmpState) : (setPlayer st s).events = s.events := rfl
@[simp] theorem setPlayer_time (st : LmpState) : (setPlayer st s).time = s.time := rfl
@[simp] theorem setPlayer_ret (st : LmpState) : (setPlayer st s).ret = s.ret := rfl
@[simp] theorem setPlayer_slot (st : LmpState) : (setPlayer st s).slot = s.slot := rfl
@[simp] theorem setPlayer_drv (st : LmpState) (c : Chan) : (setPlayer st s).drv c = s.drv c := by cases c <;> rfl
@[simp] theorem setPlayer_line (st : LmpState) (c : Chan) : (setPlayer st s).line c = s.line c := by cases c <;> rfl

/-! ### modDrv -/

@[simp] theorem modDrv_dig (c : Chan) (f : Driver → Driver) : (s.modDrv c f).dig = s.dig := by cases c <;> rfl
@[simp] theorem modDrv_enc (c : Chan) (f : Driver → Driver) : (s.modDrv c f).enc = s.enc := by cases c <;> rfl
@[simp] theorem modDrv_mw (c : Chan) (f : Driver → Driver) : (s.modDrv c f).mw = s.mw := by cases c <;> rfl
@[simp] theorem modDrv_cnt (c : Chan) (f : Driver → Driver) : (s.modDrv c f).cnt = s.cnt := by cases c <;> rfl
@[simp] theorem modDrv_pos (c : Chan) (f : Driver → Driver) : (s.modDrv c f).pos = s.pos := by cases c <;> rfl
@[simp] theorem modDrv_rem (c : Chan) (f : Driver → Driver) : (s.modDrv c f).rem = s.rem := by cases c <;> rfl
@[simp] theorem modDrv_ksRow (c : Chan) (f : Driver → Driver) : (s.modDrv c f).ksRow = s.ksRow := by cases c <;> rfl
@[simp] theorem modDrv_ksPat (c : Chan) (f : Driver → Driver) : (s.modDrv c f).ksPat = s.ksPat := by cases c <;> rfl
@[simp] theorem modDrv_ksSlot (c : Chan) (f : Driver → Driver) :
    (s.modDrv c f).ksSlot = s.ksSlot := by cases c <;> rfl
@[simp] theorem modDrv_scPhase (c : Chan) (f : Driver → Driver) :
    (s.modDrv c f).scPhase = s.scPhase := by cases c <;> rfl
@[simp] theorem modDrv_ksPhase (c : Chan) (f : Driver → Driver) :
    (s.modDrv c f).ksPhase = s.ksPhase := by cases c <;> rfl
@[simp] theorem modDrv_lmpState (c : Chan) (f : Driver → Driver) :
    (s.modDrv c f).lmpState = s.lmpState := by cases c <;> rfl
@[simp] theorem modDrv_lmpIdx (c : Chan) (f : Driver → Driver) :
    (s.modDrv c f).lmpIdx = s.lmpIdx := by cases c <;> rfl
@[simp] theorem modDrv_scMi (c : Chan) (f : Driver → Driver) : (s.modDrv c f).scMi = s.scMi := by cases c <;> rfl
@[simp] theorem modDrv_stNomatch (c : Chan) (f : Driver → Driver) :
    (s.modDrv c f).stNomatch = s.stNomatch := by cases c <;> rfl
@[simp] theorem modDrv_stBusTimeout (c : Chan) (f : Driver → Driver) :
    (s.modDrv c f).stBusTimeout = s.stBusTimeout := by cases c <;> rfl
@[simp] theorem modDrv_stDone (c : Chan) (f : Driver → Driver) :
    (s.modDrv c f).stDone = s.stDone := by cases c <;> rfl
@[simp] theorem modDrv_led (c : Chan) (f : Driver → Driver) : (s.modDrv c f).led = s.led := by cases c <;> rfl
@[simp] theorem modDrv_kpRow (c : Chan) (f : Driver → Driver) : (s.modDrv c f).kpRow = s.kpRow := by cases c <;> rfl
@[simp] theorem modDrv_dlyReq (c : Chan) (f : Driver → Driver) :
    (s.modDrv c f).dlyReq = s.dlyReq := by cases c <;> rfl
@[simp] theorem modDrv_dlyLen (c : Chan) (f : Driver → Driver) :
    (s.modDrv c f).dlyLen = s.dlyLen := by cases c <;> rfl
@[simp] theorem modDrv_window (c : Chan) (f : Driver → Driver) :
    (s.modDrv c f).window = s.window := by cases c <;> rfl
@[simp] theorem modDrv_cols (c : Chan) (f : Driver → Driver) : (s.modDrv c f).cols = s.cols := by cases c <;> rfl
@[simp] theorem modDrv_keys (c : Chan) (f : Driver → Driver) : (s.modDrv c f).keys = s.keys := by cases c <;> rfl
@[simp] theorem modDrv_line1 (c : Chan) (f : Driver → Driver) : (s.modDrv c f).line1 = s.line1 := by cases c <;> rfl
@[simp] theorem modDrv_line2 (c : Chan) (f : Driver → Driver) : (s.modDrv c f).line2 = s.line2 := by cases c <;> rfl
@[simp] theorem modDrv_rst (c : Chan) (f : Driver → Driver) : (s.modDrv c f).rst = s.rst := by cases c <;> rfl
@[simp] theorem modDrv_rstIn (c : Chan) (f : Driver → Driver) : (s.modDrv c f).rstIn = s.rstIn := by cases c <;> rfl
@[simp] theorem modDrv_cfg (c : Chan) (f : Driver → Driver) : (s.modDrv c f).cfg = s.cfg := by cases c <;> rfl
@[simp] theorem modDrv_events (c : Chan) (f : Driver → Driver) :
    (s.modDrv c f).events = s.events := by cases c <;> rfl
@[simp] theorem modDrv_time (c : Chan) (f : Driver → Driver) : (s.modDrv c f).time = s.time := by cases c <;> rfl
@[simp] theorem modDrv_ret (c : Chan) (f : Driver → Driver) : (s.modDrv c f).ret = s.ret := by cases c <;> rfl
@[simp] theorem modDrv_slot (c : Chan) (f : Driver → Driver) : (s.modDrv c f).slot = s.slot := by cases c <;> rfl
@[simp] theorem modDrv_line (c c' : Chan) (f : Driver → Driver) :
    (s.modDrv c f).line c' = s.line c' := by cases c <;> cases c' <;> rfl
@[simp] theorem modDrv_drv_own (c : Chan) (f : Driver → Driver) :
    (s.modDrv c f).drv c = f (s.drv c) := by cases c <;> rfl
theorem modDrv_drv_other (c c' : Chan) (h : c' ≠ c) (f : Driver → Driver) : (s.modDrv c f).drv c' = s.drv c' := by
  cases c <;> cases c' <;> first | rfl | exact absurd rfl h
@[simp] theorem modDrv_drv1_own (f : Driver → Driver) : (s.modDrv .ch1 f).drv1 = f s.drv1 := rfl
@[simp] theorem modDrv_drv1_other (f : Driver → Driver) : (s.modDrv .ch2 f).drv1 = s.drv1 := rfl
@[simp] theorem modDrv_drv2_own (f : Driver → Driver) : (s.modDrv .ch2 f).drv2 = f s.drv2 := rfl
@[simp] theorem modDrv_drv2_other (f : Driver → Driver) : (s.modDrv .ch1 f).drv2 = s.drv2 := rfl
@[simp] theorem modDrv_modDrv (c : Chan) (f g : Driver → Driver) :
    (s.modDrv c f).modDrv c g = s.modDrv c fun x => g (f x) := by
  cases c <;> rfl

/-! ### modLine -/

@[simp] theorem modLine_dig (c : Chan) (f : Line → Line) : (s.modLine c f).dig = s.dig := by cases c <;> rfl
@[simp] theorem modLine_enc (c : Chan) (f : Line → Line) : (s.modLine c f).enc = s.enc := by cases c <;> rfl
@[simp] theorem modLine_mw (c : Chan) (f : Line → Line) : (s.modLine c f).mw = s.mw := by cases c <;> rfl
@[simp] theorem modLine_cnt (c : Chan) (f : Line → Line) : (s.modLine c f).cnt = s.cnt := by cases c <;> rfl
@[simp] theorem modLine_pos (c : Chan) (f : Line → Line) : (s.modLine c f).pos = s.pos := by cases c <;> rfl
@[simp] theorem modLine_rem (c : Chan) (f : Line → Line) : (s.modLine c f).rem = s.rem := by cases c <;> rfl
@[simp] theorem modLine_ksRow (c : Chan) (f : Line → Line) : (s.modLine c f).ksRow = s.ksRow := by cases c <;> rfl
@[simp] theorem modLine_ksPat (c : Chan) (f : Line → Line) : (s.modLine c f).ksPat = s.ksPat := by cases c <;> rfl
@[simp] theorem modLine_ksSlot (c : Chan) (f : Line → Line) : (s.modLine c f).ksSlot = s.ksSlot := by cases c <;> rfl
@[simp] theorem modLine_drv1 (c : Chan) (f : Line → Line) : (s.modLine c f).drv1 = s.drv1 := by cases c <;> rfl
@[simp] theorem modLine_drv2 (c : Chan) (f : Line → Line) : (s.modLine c f).drv2 = s.drv2 := by cases c <;> rfl
@[simp] theorem modLine_scPhase (c : Chan) (f : Line → Line) :
    (s.modLine c f).scPhase = s.scPhase := by cases c <;> rfl
@[simp] theorem modLine_ksPhase (c : Chan) (f : Line → Line) :
    (s.modLine c f).ksPhase = s.ksPhase := by cases c <;> rfl
@[simp] theorem modLine_lmpState (c : Chan) (f : Line → Line) :
    (s.modLine c f).lmpState = s.lmpState := by cases c <;> rfl
@[simp] theorem modLine_lmpIdx (c : Chan) (f : Line → Line) : (s.modLine c f).lmpIdx = s.lmpIdx := by cases c <;> rfl
@[simp] theorem modLine_scMi (c : Chan) (f : Line → Line) : (s.modLine c f).scMi = s.scMi := by cases c <;> rfl
@[simp] theorem modLine_stNomatch (c : Chan) (f : Line → Line) :
    (s.modLine c f).stNomatch = s.stNomatch := by cases c <;> rfl
@[simp] theorem modLine_stBusTimeout (c : Chan) (f : Line → Line) :
    (s.modLine c f).stBusTimeout = s.stBusTimeout := by cases c <;> rfl
@[simp] theorem modLine_stDone (c : Chan) (f : Line → Line) : (s.modLine c f).stDone = s.stDone := by cases c <;> rfl
@[simp] theorem modLine_led (c : Chan) (f : Line → Line) : (s.modLine c f).led = s.led := by cases c <;> rfl
@[simp] theorem modLine_kpRow (c : Chan) (f : Line → Line) : (s.modLine c f).kpRow = s.kpRow := by cases c <;> rfl
@[simp] theorem modLine_dlyReq (c : Chan) (f : Line → Line) : (s.modLine c f).dlyReq = s.dlyReq := by cases c <;> rfl
@[simp] theorem modLine_dlyLen (c : Chan) (f : Line → Line) : (s.modLine c f).dlyLen = s.dlyLen := by cases c <;> rfl
@[simp] theorem modLine_window (c : Chan) (f : Line → Line) : (s.modLine c f).window = s.window := by cases c <;> rfl
@[simp] theorem modLine_cols (c : Chan) (f : Line → Line) : (s.modLine c f).cols = s.cols := by cases c <;> rfl
@[simp] theorem modLine_keys (c : Chan) (f : Line → Line) : (s.modLine c f).keys = s.keys := by cases c <;> rfl
@[simp] theorem modLine_rst (c : Chan) (f : Line → Line) : (s.modLine c f).rst = s.rst := by cases c <;> rfl
@[simp] theorem modLine_rstIn (c : Chan) (f : Line → Line) : (s.modLine c f).rstIn = s.rstIn := by cases c <;> rfl
@[simp] theorem modLine_cfg (c : Chan) (f : Line → Line) : (s.modLine c f).cfg = s.cfg := by cases c <;> rfl
@[simp] theorem modLine_events (c : Chan) (f : Line → Line) : (s.modLine c f).events = s.events := by cases c <;> rfl
@[simp] theorem modLine_time (c : Chan) (f : Line → Line) : (s.modLine c f).time = s.time := by cases c <;> rfl
@[simp] theorem modLine_ret (c : Chan) (f : Line → Line) : (s.modLine c f).ret = s.ret := by cases c <;> rfl
@[simp] theorem modLine_slot (c : Chan) (f : Line → Line) : (s.modLine c f).slot = s.slot := by cases c <;> rfl
@[simp] theorem modLine_drv (c c' : Chan) (f : Line → Line) :
    (s.modLine c f).drv c' = s.drv c' := by cases c <;> cases c' <;> rfl
@[simp] theorem modLine_line_own (c : Chan) (f : Line → Line) :
    (s.modLine c f).line c = f (s.line c) := by cases c <;> rfl
theorem modLine_line_other (c c' : Chan) (h : c' ≠ c) (f : Line → Line) : (s.modLine c f).line c' = s.line c' := by
  cases c <;> cases c' <;> first | rfl | exact absurd rfl h
@[simp] theorem modLine_line1_own (f : Line → Line) : (s.modLine .ch1 f).line1 = f s.line1 := rfl
@[simp] theorem modLine_line1_other (f : Line → Line) : (s.modLine .ch2 f).line1 = s.line1 := rfl
@[simp] theorem modLine_line2_own (f : Line → Line) : (s.modLine .ch2 f).line2 = f s.line2 := rfl
@[simp] theorem modLine_line2_other (f : Line → Line) : (s.modLine .ch1 f).line2 = s.line2 := rfl
@[simp] theorem modLine_modLine (c : Chan) (f g : Line → Line) :
    (s.modLine c f).modLine c g = s.modLine c fun x => g (f x) := by
  cases c <;> rfl

/-! ### assertReset -/

@[simp] theorem assertReset_dig : s.assertReset.dig = 0 := rfl
@[simp] theorem assertReset_enc : s.assertReset.enc = 0 := rfl
@[simp] theorem assertReset_mw : s.assertReset.mw = 0 := rfl
@[simp] theorem assertReset_cnt : s.assertReset.cnt = 0 := rfl
@[simp] theorem assertReset_pos : s.assertReset.pos = 0 := rfl
@[simp] theorem assertReset_rem : s.assertReset.rem = s.cfg.iterCount := rfl
@[simp] theorem assertReset_ksRow : s.assertReset.ksRow = 0 := rfl
@[simp] theorem assertReset_ksPat : s.assertReset.ksPat = 0 := rfl
@[simp] theorem assertReset_ksSlot : s.assertReset.ksSlot = 0 := rfl
@[simp] theorem assertReset_drv1 : s.assertReset.drv1 = .reset := rfl
@[simp] theorem assertReset_drv2 : s.assertReset.drv2 = .reset := rfl
@[simp] theorem assertReset_scPhase : s.assertReset.scPhase = .reset := rfl
@[simp] theorem assertReset_ksPhase : s.assertReset.ksPhase = .idle := rfl
@[simp] theorem assertReset_lmpState : s.assertReset.lmpState = .idle := rfl
@[simp] theorem assertReset_lmpIdx : s.assertReset.lmpIdx = 0 := rfl
@[simp] theorem assertReset_scMi : s.assertReset.scMi = 0 := rfl
@[simp] theorem assertReset_stNomatch : s.assertReset.stNomatch = false := rfl
@[simp] theorem assertReset_stBusTimeout : s.assertReset.stBusTimeout = false := rfl
@[simp] theorem assertReset_stDone : s.assertReset.stDone = false := rfl
@[simp] theorem assertReset_led : s.assertReset.led = false := rfl
@[simp] theorem assertReset_kpRow : s.assertReset.kpRow = allInactive s.cfg := rfl
@[simp] theorem assertReset_dlyReq : s.assertReset.dlyReq = false := rfl
@[simp] theorem assertReset_dlyLen : s.assertReset.dlyLen = 0 := rfl
@[simp] theorem assertReset_window : s.assertReset.window = [] := rfl
@[simp] theorem assertReset_cols : s.assertReset.cols = s.cols := rfl
@[simp] theorem assertReset_keys : s.assertReset.keys = s.keys := rfl
@[simp] theorem assertReset_line1 : s.assertReset.line1 = s.line1 := rfl
@[simp] theorem assertReset_line2 : s.assertReset.line2 = s.line2 := rfl
@[simp] theorem assertReset_rst : s.assertReset.rst = true := rfl
@[simp] theorem assertReset_rstIn : s.assertReset.rstIn = none := rfl
@[simp] theorem assertReset_cfg : s.assertReset.cfg = s.cfg := rfl
@[simp] theorem assertReset_events : s.assertReset.events = s.events := rfl
@[simp] theorem assertReset_time : s.assertReset.time = s.time := rfl
@[simp] theorem assertReset_ret : s.assertReset.ret = .none := rfl
@[simp] theorem assertReset_slot : s.assertReset.slot = s.slot := rfl
@[simp] theorem assertReset_drv (c : Chan) : s.assertReset.drv c = .reset := by cases c <;> rfl
@[simp] theorem assertReset_line (c : Chan) : s.assertReset.line c = s.line c := by cases c <;> rfl

/-! ### channels -/

@[simp] theorem drv_ch1 : s.drv .ch1 = s.drv1 := rfl
@[simp] theorem drv_ch2 : s.drv .ch2 = s.drv2 := rfl
@[simp] theorem line_ch1 : s.line .ch1 = s.line1 := rfl
@[simp] theorem line_ch2 : s.line .ch2 = s.line2 := rfl

/-- Updates of a driver and of a channel's environment commute. -/
theorem modLine_modDrv (c c' : Chan) (f : Driver → Driver) (g : Line → Line) :
    (s.modDrv c f).modLine c' g = (s.modLine c' g).modDrv c f := by
  cases c <;> cases c' <;> rfl

end Sys2Proof.Machine
end

