-- ==== Sys2Proof/Laws/Ready.lean ====
section
/-! SUPPORT. The ready flag's answers, and the ready-wait: everything it can do. -/

namespace Sys2Proof.Machine

open Sys2Proof.Config

theorem Ready.after_add (r : Ready) (m n : Nat) : r.after (m + n) = (r.after m).after n := by
  induction m generalizing r with
  | zero => simp [Ready.after]
  | succ m ih => rw [Nat.succ_add]; simp [Ready.after, ih]

theorem Ready.waited_add (r : Ready) (m n : Nat) : r.waited (m + n) = r.waited m + (r.after m).waited n := by
  induction m generalizing r with
  | zero => simp [Ready.after, Ready.waited]
  | succ m ih => rw [Nat.succ_add]; simp [Ready.after, Ready.waited, ih, Nat.add_assoc]

theorem Ready.answers_add (b : Option Nat) (r : Ready) (m n : Nat) :
    r.answers b (m + n) = (r.answers b m && (r.after m).answers b n) := by
  induction m generalizing r with
  | zero => simp [Ready.after, Ready.answers]
  | succ m ih =>
    rw [Nat.succ_add]
    simp only [Ready.answers, Ready.after, ih]
    cases r.pop.1 <;> simp [Bool.and_assoc]

/-- A flag that always sets after `w` goes on doing so. -/
theorem Ready.pop_steady (w : Nat) : Ready.pop ⟨[], some w⟩ = (some w, ⟨[], some w⟩) := rfl

theorem Ready.after_steady (w n : Nat) : Ready.after ⟨[], some w⟩ n = ⟨[], some w⟩ := by
  induction n with
  | zero => rfl
  | succ n ih => simpa [Ready.after, Ready.pop_steady] using ih

theorem Ready.waited_steady (w n : Nat) : Ready.waited ⟨[], some w⟩ n = n * w := by
  induction n with
  | zero => simp [Ready.waited]
  | succ n ih => simp [Ready.waited, Ready.pop_steady, ih, Nat.succ_mul, Nat.add_comm]

theorem Ready.answers_steady (b : Option Nat) (w n : Nat) (h : inTime b w = true) :
    Ready.answers b ⟨[], some w⟩ n = true := by
  induction n with
  | zero => rfl
  | succ n ih => simp [Ready.answers, Ready.pop_steady, h, ih]

@[simp] theorem Run.done_andThen (s : State) (f : State → Run) : (Run.done s).andThen f = f s := rfl
@[simp] theorem Run.stop_andThen (s : State) (f : State → Run) : (Run.stop s).andThen f = .stop s := rfl
@[simp] theorem Run.result_done (s : State) : (Run.done s).result = .next s := rfl
@[simp] theorem Run.result_stop (s : State) : (Run.stop s).result = .next s := rfl

theorem Run.andThen_assoc (r : Run) (f g : State → Run) :
    (r.andThen f).andThen g = r.andThen fun s => (f s).andThen g := by
  cases r <;> rfl

/-- An operation that returns to its caller through `andThen` returned from both parts. -/
theorem Run.andThen_done {r : Run} {f : State → Run} {t : State} (h : r.andThen f = .done t) :
    ∃ u, r = .done u ∧ f u = .done t := by
  cases r with
  | done u => exact ⟨u, rfl, h⟩
  | stop u => cases h

/-- An operation that stops through `andThen` stopped in one of its parts. -/
theorem Run.andThen_stop {r : Run} {f : State → Run} {t : State} (h : r.andThen f = .stop t) :
    r = .stop t ∨ ∃ u, r = .done u ∧ f u = .stop t := by
  cases r with
  | done u => exact .inr ⟨u, rfl, h⟩
  | stop u => exact .inl (by simpa using h)

/-- The state a run ends in. -/
def Run.state : Run → State
  | .done s => s
  | .stop s => s

theorem Run.result_eq (r : Run) : r.result = .next r.state := by cases r <;> rfl

/-- Everything that can happen right after an event: nothing; `rst` comes nearer by one event; `rst` is asserted and
the block is reset. -/
theorem resetPoint_cases (s : State) :
    (s.rstIn = none ∧ resetPoint s = .done s) ∨
    (∃ n, s.rstIn = some (n + 1) ∧ resetPoint s = .done { s with rstIn := some n }) ∨
    (s.rstIn = some 0 ∧ resetPoint s = .stop s.assertReset) := by
  unfold resetPoint
  rcases s.rstIn with _ | _ | n
  · exact .inl ⟨rfl, rfl⟩
  · exact .inr (.inr ⟨rfl, rfl⟩)
  · exact .inr (.inl ⟨n, rfl, rfl⟩)

/-- Without a reset to come an event is followed by the next statement. -/
theorem resetPoint_none {s : State} (h : s.rstIn = none) : resetPoint s = .done s := by
  rcases resetPoint_cases s with ⟨-, h'⟩ | ⟨n, h', -⟩ | ⟨h', -⟩
  · exact h'
  · rw [h] at h'; cases h'
  · rw [h] at h'; cases h'

/-- A sleep without a reset in it: `Delay(T)`, and `T` has passed. -/
theorem sleep_none {s : State} (h : s.rstIn = none) (t : Nat) : s.sleep t = .done ((s.beginSleep t).endSleep t) := by
  unfold State.sleep
  rw [resetPoint_none (by simpa using h), Run.done_andThen]

/-- NoMatch without a reset at its event. -/
theorem raise_noMatch {s : State} (h : s.rstIn = none) (p : Byte) :
    s.raise (.noMatch p) = .done (s.setNomatch.emit (.noMatch p)) :=
  resetPoint_none (by simpa using h)

/-- Everything a ready-wait can do: the flag is seen; or it never sets and nothing more happens; or the wait is given
up. -/
theorem readyWait_cases (c : Chan) (v : View → View) (s : State) :
    (∃ w r, (s.line c).ready.pop = (some w, r) ∧ inTime s.cfg.busTimeout w = true ∧
      readyWait c v s = resetPoint (s.readySeen c w r v)) ∨
    ((s.line c).ready.pop.1 = none ∧ s.cfg.busTimeout = none ∧ readyWait c v s = .stop s) ∨
    (∃ t, s.cfg.busTimeout = some t ∧ readyWait c v s = s.readyGivenUp c t) := by
  unfold readyWait
  rcases hp : (s.line c).ready.pop with ⟨_ | w, r⟩
  · cases hb : s.cfg.busTimeout with
    | none => exact .inr (.inl ⟨rfl, rfl, rfl⟩)
    | some t => exact .inr (.inr ⟨t, rfl, rfl⟩)
  · by_cases ht : inTime s.cfg.busTimeout w = true
    · exact .inl ⟨w, r, rfl, ht, by simp [ht]⟩
    · cases hb : s.cfg.busTimeout with
      | none => simp [inTime, hb] at ht
      | some t => rw [hb] at ht; exact .inr (.inr ⟨t, rfl, by simp [ht]⟩)

/-- A ready-wait whose flag is seen in time, without a reset at its event. -/
theorem readyWait_answered (c : Chan) (v : View → View) (s : State) (h : s.answers c 1 = true)
    (hr : s.rstIn = none) :
    readyWait c v s = .done (s.readySeen c ((s.line c).ready.pop.1.getD 0) (s.line c).ready.pop.2 v) := by
  unfold State.answers at h
  unfold readyWait
  rcases hp : (s.line c).ready.pop with ⟨_ | w, r⟩
  · simp [Ready.answers, hp] at h
  · simp only [Ready.answers, hp, Bool.and_true] at h
    simp only [h, if_true, Option.getD_some]
    exact resetPoint_none (by simpa [State.readySeen] using hr)

end Sys2Proof.Machine
end

