-- ==== Sys2Proof/Laws/Channel.lean ====
section
/-! SUPPORT. What a transfer on one channel leaves when its ready-waits are answered: `channelAfter`, and how two such
operations on one channel compose. -/

namespace Sys2Proof.Machine

open Sys2Proof.Config

@[simp] theorem channelAfter_cfg (c : Chan) (n : Nat) (evs ticks d v) (s : State) :
    (channelAfter c n evs ticks d v s).cfg = s.cfg := by cases c <;> rfl

@[simp] theorem channelAfter_drv (c : Chan) (n : Nat) (evs ticks d v) (s : State) :
    (channelAfter c n evs ticks d v s).drv c = d (s.drv c) := by cases c <;> rfl

@[simp] theorem channelAfter_ready (c : Chan) (n : Nat) (evs ticks d v) (s : State) :
    ((channelAfter c n evs ticks d v s).line c).ready = (s.line c).ready.after n := by cases c <;> rfl

@[simp] theorem channelAfter_rstIn (c : Chan) (n : Nat) (evs ticks d v) (s : State) :
    (channelAfter c n evs ticks d v s).rstIn = s.rstIn := by cases c <;> rfl

@[simp] theorem sleptLast_rstIn (t : Nat) (s : State) : (sleptLast t s).rstIn = s.rstIn := rfl
@[simp] theorem sleptLast_cfg (t : Nat) (s : State) : (sleptLast t s).cfg = s.cfg := rfl
@[simp] theorem sleptLast_drv (t : Nat) (c : Chan) (s : State) : (sleptLast t s).drv c = s.drv c := by cases c <;> rfl
@[simp] theorem sleptLast_line (t : Nat) (c : Chan) (s : State) : (sleptLast t s).line c = s.line c := by
  cases c <;> rfl
@[simp] theorem sleptLast_sleptLast (t u : Nat) (s : State) : sleptLast u (sleptLast t s) = sleptLast u s := rfl

theorem channelAfter_sleptLast (c : Chan) (n : Nat) (evs ticks d v) (t : Nat) (s : State) :
    channelAfter c n evs ticks d v (sleptLast t s) = sleptLast t (channelAfter c n evs ticks d v s) := by
  cases c <;> rfl

/-- Two operations on one channel, one after the other. -/
theorem channelAfter_channelAfter (c : Chan) (m n : Nat) (evs evs' : List Event) (u u' : Nat) (d d' : Driver → Driver)
    (v v' : View → View) (s : State) :
    channelAfter c n evs' u' d' v' (channelAfter c m evs u d v s) =
      channelAfter c (m + n) (evs ++ evs') (u + u') (fun x => d' (d x)) (fun x => v' (v x)) s := by
  cases c <;>
    simp [channelAfter, State.modDrv, State.modLine, State.line, Ready.after_add, Ready.waited_add,
      List.append_assoc] <;> omega

/-- An operation on channel `c` that touches nothing is `channelAfter` with nothing. -/
theorem channelAfter_nothing (c : Chan) (s : State) : channelAfter c 0 [] 0 id id s = s := by
  cases c <;> simp [channelAfter, State.modDrv, State.modLine, Ready.after, Ready.waited]

theorem answers_sleptLast (c : Chan) (n t : Nat) (s : State) : (sleptLast t s).answers c n = s.answers c n := by
  simp [State.answers]

theorem answers_modDrv (c c' : Chan) (n : Nat) (f : Driver → Driver) (s : State) :
    (s.modDrv c' f).answers c n = s.answers c n := by
  simp [State.answers]

theorem answers_channelAfter (c : Chan) (m n : Nat) (evs ticks d v) (s : State) (h : s.answers c (m + n) = true) :
    (channelAfter c m evs ticks d v s).answers c n = true := by
  simp only [State.answers, Ready.answers_add, Bool.and_eq_true] at h
  simpa [State.answers] using h.2

theorem answers_le (c : Chan) (m n : Nat) (s : State) (h : s.answers c (m + n) = true) : s.answers c m = true := by
  simp only [State.answers, Ready.answers_add, Bool.and_eq_true] at h
  exact h.1

/-- A write of driver registers is `channelAfter` with that write. -/
theorem modDrv_eq (c : Chan) (f : Driver → Driver) (s : State) : s.modDrv c f = channelAfter c 0 [] 0 f id s := by
  cases c <;> simp [channelAfter, State.modDrv, State.modLine, Ready.after, Ready.waited]

/-- A sleep without a reset in it is `channelAfter` with its event and its time, and the delay port. -/
theorem sleep_eq (c : Chan) (t : Nat) (s : State) (hr : s.rstIn = none) :
    s.sleep t = .done (sleptLast t (channelAfter c 0 [.delay t] t id id s)) := by
  rw [sleep_none hr]
  cases c <;> simp [State.beginSleep, State.endSleep, sleptLast, channelAfter, State.emit, State.modDrv,
    State.modLine, Ready.after, Ready.waited]

/-- DCD.SENDBYTE when the flag answers. -/
theorem sendByte_answered (c : Chan) (b : Byte) (v : View → View) (s : State) (h : s.answers c 1 = true)
    (hr : s.rstIn = none) :
    sendByte c b v s = .done (channelAfter c 1 [.busData c b, .busReady c] 0
      (fun d => { d with busReq := .none, busByte := b }) v s) := by
  unfold sendByte writeData
  have h' : (s.requestData c b).answers c 1 = true := by
    simpa [State.answers, State.requestData] using h
  have hr' : (s.requestData c b).rstIn = none := by simpa [State.requestData] using hr
  rw [resetPoint_none hr', Run.done_andThen, readyWait_answered _ _ _ h' hr']
  cases c <;>
    simp [State.readySeen, State.requestData, channelAfter, State.modDrv, State.modLine, State.line, State.emit,
      Ready.after, Ready.waited]

/-- One frame when the flag answers. -/
theorem sendFrame_answered (c : Chan) (n : Nibble) (en rs : Bool) (v : View → View) (s : State)
    (h : s.answers c 1 = true) (hr : s.rstIn = none) :
    sendFrame c n en rs v s = .done (sleptLast s.cfg.tStep (channelAfter c 1 (frameEvents s.cfg c n en rs) s.cfg.tStep
      (fun d => { d with step := d.step + 1, busReq := .none, busByte := frame s.cfg n en rs }) v s)) := by
  unfold sendFrame stepDelay
  rw [sendByte_answered _ _ _ _ h hr, Run.done_andThen, sleep_eq c _ _ (by simpa using hr), Run.done_andThen, nextStep,
    modDrv_eq]
  simp only [channelAfter_cfg, channelAfter_sleptLast, channelAfter_channelAfter, frameEvents]
  simp

/-- DCD.SENDNIBBLE when the flag answers twice. -/
theorem sendNibble_answered (c : Chan) (n : Nibble) (rs : Bool) (v : View → View) (s : State)
    (h : s.answers c 2 = true) (hr : s.rstIn = none) :
    sendNibble c n rs v s = .done (sleptLast s.cfg.tStep (channelAfter c 2 (nibbleEvents s.cfg c n rs)
      (2 * s.cfg.tStep)
      (fun d => { d with step := d.step + 2, busReq := .none, busByte := frame s.cfg n false rs }) v s)) := by
  unfold sendNibble
  rw [sendFrame_answered _ _ _ _ _ _ (answers_le c 1 1 s h) hr, Run.done_andThen, sendFrame_answered]
  · simp only [sleptLast_cfg, channelAfter_cfg, channelAfter_sleptLast, channelAfter_channelAfter,
      sleptLast_sleptLast, nibbleEvents, id]
    congr 3
    · omega
    · funext d; simp [BitVec.add_assoc]
  · rw [answers_sleptLast]; exact answers_channelAfter c 1 1 _ _ _ _ s h
  · simpa using hr

/-- A whole byte when the flag answers four times. -/
theorem transfer_answered (c : Chan) (rs : Bool) (b : Byte) (s : State) (h : s.answers c 4 = true)
    (hr : s.rstIn = none) :
    transfer c rs b s = .done (sleptLast s.cfg.tStep (channelAfter c 4 (byteEvents s.cfg c rs b) (4 * s.cfg.tStep)
      (fun d => { d with byte := b, rs := rs, step := 0, phase := .xfer, busReq := .none,
                         busByte := frame s.cfg (lowNibble b) false rs })
      (fun v => v.receive s.cfg rs b) s)) := by
  unfold transfer
  have h0 : (beginTransfer c rs b s).answers c 4 = true := by
    rw [beginTransfer, answers_modDrv]; exact h
  rw [sendNibble_answered _ _ _ _ _ (answers_le c 2 2 _ h0) (by simpa [beginTransfer] using hr), Run.done_andThen,
    sendNibble_answered]
  · simp only [beginTransfer, modDrv_eq, sleptLast_cfg, channelAfter_cfg, channelAfter_sleptLast,
      channelAfter_channelAfter, sleptLast_sleptLast, byteEvents, id]
    congr 3
    all_goals omega
  · rw [answers_sleptLast]; exact answers_channelAfter c 2 2 _ _ _ _ _ h0
  · simpa [beginTransfer] using hr

end Sys2Proof.Machine
end

