-- ==== Sys2Proof/Laws/Display.lean ====
section
/-! SUPPORT. The operations on a channel that others are made of, when their ready-waits are answered. -/

namespace Sys2Proof.Machine

open Sys2Proof.Config

theorem setPhase_eq (c : Chan) (ph : DPhase) (s : State) :
    setPhase c ph s = channelAfter c 0 [] 0 (fun d => { d with phase := ph }) id s := modDrv_eq c _ s

theorem setCursor_eq (c : Chan) (v : BitVec 3) (s : State) :
    setCursor c v s = channelAfter c 0 [] 0 (fun d => { d with cur := v }) id s := modDrv_eq c _ s

/-- A byte operation that sets the cursor register by `k` afterwards. -/
theorem transfer_then_cursor (c : Chan) (rs : Bool) (b : Byte) (k : BitVec 3 → BitVec 3) (s : State)
    (h : s.answers c 4 = true) (hr : s.rstIn = none) :
    ((transfer c rs b s).andThen fun t => finish c (setCursor c (k (t.drv c).cur) t)) =
      .done (afterTransfer c rs b k (fun v => v.receive s.cfg rs b) s) := by
  rw [transfer_answered c rs b s h hr, Run.done_andThen]
  simp only [finish, setPhase_eq, setCursor_eq, channelAfter_sleptLast, channelAfter_channelAfter, afterTransfer,
    sleptLast_drv, channelAfter_drv]
  cases c <;> simp [channelAfter, transferred, State.modDrv, State.modLine]

theorem writeChar_answered (c : Chan) (b : Byte) (s : State) (h : s.answers c 4 = true) (hr : s.rstIn = none) :
    writeChar c b s = .done (afterTransfer c true b (· + 1) (fun v => v.character b) s) :=
  transfer_then_cursor c true b (· + 1) s h hr

theorem moveCursor_answered (c : Chan) (o : BitVec 2) (s : State) (h : s.answers c 4 = true) (hr : s.rstIn = none) :
    moveCursor c o s = .done (afterTransfer c false (cursorCommand s.cfg o) (fun _ => o.setWidth 3)
      (fun v => v.command s.cfg (cursorCommand s.cfg o)) s) :=
  transfer_then_cursor c false _ (fun _ => o.setWidth 3) s h hr

theorem writeCommand_answered (c : Chan) (b : Byte) (s : State) (h : s.answers c 4 = true) (hr : s.rstIn = none) :
    writeCommand c b s = .done (afterTransfer c false b id (fun v => v.command s.cfg b) s) := by
  unfold writeCommand
  rw [transfer_answered c false b s h hr, Run.done_andThen]
  simp only [finish, setPhase_eq, channelAfter_sleptLast, channelAfter_channelAfter, afterTransfer]
  cases c <;> simp [channelAfter, transferred, State.modDrv, State.modLine, View.receive]

/-- After clear and then home the display is empty, whatever the two command bytes are. -/
theorem View.clear_then_home (p : Params) (v : View) :
    (v.receive p false p.cmdClear).receive p false p.cmdHome = v.cleared := by
  simp only [View.receive, View.command, View.cleared]
  split <;> simp_all

theorem clearDisplay_answered (c : Chan) (s : State) (h : s.answers c 8 = true) (hr : s.rstIn = none) :
    clearDisplay c s = .done (afterClear c s) := by
  unfold clearDisplay
  rw [transfer_answered c false _ s (answers_le c 4 4 s h) hr, Run.done_andThen, transfer_answered]
  · rw [Run.done_andThen, sleep_eq c _ _ (by simpa [setPhase] using hr)]
    simp only [Run.done_andThen, finish, setPhase_eq, setCursor_eq, sleptLast_cfg, channelAfter_cfg,
      channelAfter_sleptLast, channelAfter_channelAfter, sleptLast_sleptLast, afterClear, View.clear_then_home,
      clearEvents, transferred, id]
    congr 3
    all_goals first | (simp; done) | omega
  · rw [answers_sleptLast]; exact answers_channelAfter c 4 4 _ _ _ _ s h
  · simpa using hr

/-- The driver registers after raw pairs from pair `j` on. -/
def pairsSent : List (Byte × Byte) → Nat → Driver → Driver
  | [], _, d => d
  | (_, b) :: ps, j, d => pairsSent ps (j + 1) { d with seq := BitVec.ofNat 4 j, busReq := .none, busByte := b }

/-- One raw byte of the initialisation sequence when the flag answers. -/
theorem sendRaw_answered (c : Chan) (b : Byte) (s : State) (h : s.answers c 1 = true) (hr : s.rstIn = none) :
    sendRaw c b s = .done (sleptLast s.cfg.tStep (channelAfter c 1 [.busData c b, .busReady c, .delay s.cfg.tStep]
      s.cfg.tStep (fun d => { d with busReq := .none, busByte := b }) id s)) := by
  unfold sendRaw stepDelay
  rw [sendByte_answered _ _ _ _ h hr, Run.done_andThen, sleep_eq c _ _ (by simpa using hr)]
  simp only [channelAfter_cfg, channelAfter_channelAfter]
  simp
  rfl

/-- One raw pair when the flag answers twice. -/
theorem sendPair_answered (c : Chan) (a b : Byte) (j : Nat) (s : State) (h : s.answers c 2 = true)
    (hr : s.rstIn = none) :
    ((sendRaw c a (setSeq c j s)).andThen (sendRaw c b)) =
      .done (sleptLast s.cfg.tStep (channelAfter c 2 (pairEvents s.cfg c (a, b)) (2 * s.cfg.tStep)
        (fun d => { d with seq := BitVec.ofNat 4 j, busReq := .none, busByte := b }) id s)) := by
  have h0 : (setSeq c j s).answers c 2 = true := by
    rw [setSeq, answers_modDrv]; exact h
  have hr0 : (setSeq c j s).rstIn = none := by simpa [setSeq] using hr
  rw [sendRaw_answered c a _ (answers_le c 1 1 _ h0) hr0, Run.done_andThen, sendRaw_answered]
  · simp only [setSeq, modDrv_eq, sleptLast_cfg, channelAfter_cfg,
      channelAfter_sleptLast, channelAfter_channelAfter, sleptLast_sleptLast, pairEvents]
    congr 3
    omega
  · rw [answers_sleptLast]; exact answers_channelAfter c 1 1 _ _ _ _ _ h0
  · simpa using hr0

/-- The raw pairs from pair `j` on, when the flag answers twice for each: each byte handed over, answered, followed by
a delay. -/
theorem sendPairs_answered (c : Chan) (p : Byte × Byte) (ps : List (Byte × Byte)) (j : Nat) (s : State)
    (h : s.answers c (2 * (ps.length + 1)) = true) (hr : s.rstIn = none) :
    sendPairs c (p :: ps) j s = .done (sleptLast s.cfg.tStep (channelAfter c (2 * (ps.length + 1))
      ((p :: ps).flatMap (pairEvents s.cfg c)) (2 * (ps.length + 1) * s.cfg.tStep) (pairsSent (p :: ps) j) id s)) := by
  induction ps generalizing p j s with
  | nil =>
    obtain ⟨a, b⟩ := p
    rw [sendPairs, sendPair_answered c a b j s h hr, Run.done_andThen, sendPairs]
    simp only [List.flatMap_cons, List.flatMap_nil, List.append_nil, List.length_nil]
    rfl
  | cons q qs ih =>
    obtain ⟨a, b⟩ := p
    have hn : 2 * ((q :: qs).length + 1) = 2 + 2 * (qs.length + 1) := by simp only [List.length_cons]; omega
    rw [hn] at h ⊢
    rw [sendPairs, sendPair_answered c a b j s (answers_le c 2 _ s h) hr, Run.done_andThen, ih]
    · simp only [sleptLast_cfg, channelAfter_cfg, channelAfter_sleptLast, channelAfter_channelAfter,
        sleptLast_sleptLast]
      congr 3
      rw [Nat.add_mul]
    · rw [answers_sleptLast]; exact answers_channelAfter c 2 _ _ _ _ _ s h
    · simpa using hr

end Sys2Proof.Machine
end

