-- ==== Sys2Proof/Laws/Memory.lean ====
section
/-! SUPPORT. The display positions: reading after writing, and the canonical form is kept by every operation. -/

namespace Sys2Proof.Machine

theorem Memory.read_write_same (m : Memory) (a : Nat) (b : Byte) : (m.write a b).read a = some b := by
  induction m with
  | nil => simp [Memory.write, Memory.read]
  | cons p m ih =>
    obtain ⟨k, v⟩ := p
    simp only [Memory.write]
    split
    · simp [Memory.read]
    · split
      · simp [Memory.read]
      · simp [Memory.read, *]

theorem Memory.read_write_other (m : Memory) (a a' : Nat) (b : Byte) (h : a' ≠ a) :
    (m.write a b).read a' = m.read a' := by
  induction m with
  | nil => simp [Memory.write, Memory.read, h]
  | cons p m ih =>
    obtain ⟨k, v⟩ := p
    simp only [Memory.write]
    split
    · simp [Memory.read, h]
    · split
      · subst_vars; simp [Memory.read, h]
      · simp [Memory.read, ih]

theorem Memory.risesFrom_write (lo : Option Nat) (m : Memory) (a : Nat) (b : Byte)
    (hm : Memory.risesFrom lo m = true) (ha : ∀ k, lo = some k → k < a) :
    Memory.risesFrom lo (m.write a b) = true := by
  induction m generalizing lo with
  | nil => cases lo <;> simp_all [Memory.write, Memory.risesFrom]
  | cons p m ih =>
    obtain ⟨k, v⟩ := p
    have hk : ∀ j, lo = some j → j < k := by
      intro j hj; subst hj; simp [Memory.risesFrom] at hm; exact hm.1
    have hm' : Memory.risesFrom (some k) m = true := by
      cases lo <;> simp_all [Memory.risesFrom]
    simp only [Memory.write]
    split
    · next hlt => cases lo <;> simp_all [Memory.risesFrom]
    · split
      · next heq => subst heq; cases lo <;> simp_all [Memory.risesFrom]
      · next hlt hne =>
        have := ih (some k) hm' (by intro j hj; cases hj; omega)
        cases lo <;> simp_all [Memory.risesFrom]

/-- A write keeps the canonical form. -/
theorem Memory.write_wf (m : Memory) (a : Nat) (b : Byte) (h : m.wf = true) : (m.write a b).wf = true :=
  Memory.risesFrom_write none m a b h (by simp)

theorem Memory.empty_wf : Memory.wf [] = true := rfl

/-- Whatever a display receives, its positions stay in canonical form. -/
theorem View.receive_wf (p : Config.Params) (rs : Bool) (b : Byte) (v : View) (h : v.text.wf = true) :
    (v.receive p rs b).text.wf = true := by
  unfold View.receive
  split
  · exact Memory.write_wf _ _ _ h
  · unfold View.command
    repeat' split
    all_goals first | exact h | rfl

end Sys2Proof.Machine
end

