-- ==== Sys2Proof/Laws/PerInstr.lean ====
section
/-! SUPPORT. What is said of every instruction as syntax: its encoding is at least one byte and at most the bytes that
`wordBytes` lays out (30_encoding.md R80; assumption 3). -/

namespace Sys2Proof.Laws.EncodeFits

/-- In every build the encoding has at least one byte and no more than the longest value. -/
def Statement (i : Instr) : Prop :=
  ∀ p : Config.Params, 1 ≤ (encode p i).length ∧ (encode p i).length ≤ 3 + posBytes p

theorem of_length {i : Instr} (n : Nat) (hn : 1 ≤ n ∧ n ≤ 3) (h : ∀ p, (encode p i).length = n) : Statement i :=
  fun p => by rw [h p]; exact ⟨hn.1, Nat.le_trans hn.2 (Nat.le_add_right 3 _)⟩

theorem leBytes_length (n v : Nat) : (leBytes n v).length = n := by
  induction n generalizing v with
  | zero => rfl
  | succ n ih => exact congrArg (· + 1) (ih _)

theorem ksReaddigit : Statement .ksReaddigit := of_length 1 ⟨Nat.le_refl 1, Nat.le_add_left 1 2⟩ fun _ => rfl
theorem ceEncrypt (digit : Nibble) (position : Position) : Statement (.ceEncrypt digit position) :=
  fun p => by
    have h : (encode p (.ceEncrypt digit position)).length = posBytes p + 2 :=
      congrArg (· + 2) (leBytes_length (posBytes p) position)
    rw [h]
    exact ⟨Nat.le_add_left 1 _, by omega⟩
theorem meEncode (digit : Nibble) : Statement (.meEncode digit) :=
  of_length 2 ⟨Nat.le_add_left 1 1, Nat.le_add_left 2 1⟩ fun _ => rfl
theorem dcdInitializeCh1 : Statement .dcdInitializeCh1 := of_length 1 ⟨Nat.le_refl 1, Nat.le_add_left 1 2⟩ fun _ => rfl
theorem dcdSendbyteCh1 (b : Byte) : Statement (.dcdSendbyteCh1 b) :=
  of_length 2 ⟨Nat.le_add_left 1 1, Nat.le_add_left 2 1⟩ fun _ => rfl
theorem dcdSendnibbleCh1 (n : Nibble) (rs : Bool) : Statement (.dcdSendnibbleCh1 n rs) :=
  of_length 2 ⟨Nat.le_add_left 1 1, Nat.le_add_left 2 1⟩ fun _ => rfl
theorem dcdWritecommandCh1 (b : Byte) : Statement (.dcdWritecommandCh1 b) :=
  of_length 2 ⟨Nat.le_add_left 1 1, Nat.le_add_left 2 1⟩ fun _ => rfl
theorem dcdWritecharCh1 (b : Byte) : Statement (.dcdWritecharCh1 b) :=
  of_length 2 ⟨Nat.le_add_left 1 1, Nat.le_add_left 2 1⟩ fun _ => rfl
theorem dcdClearCh1 : Statement .dcdClearCh1 := of_length 1 ⟨Nat.le_refl 1, Nat.le_add_left 1 2⟩ fun _ => rfl
theorem dcdMovecursorCh1 (o : BitVec 2) : Statement (.dcdMovecursorCh1 o) :=
  of_length 2 ⟨Nat.le_add_left 1 1, Nat.le_add_left 2 1⟩ fun _ => rfl
theorem dcdDisplayoffCh1 : Statement .dcdDisplayoffCh1 := of_length 1 ⟨Nat.le_refl 1, Nat.le_add_left 1 2⟩ fun _ => rfl
theorem lmpPlay (w : Byte) : Statement (.lmpPlay w) :=
  of_length 2 ⟨Nat.le_add_left 1 1, Nat.le_add_left 2 1⟩ fun _ => rfl
theorem scStart : Statement .scStart := of_length 1 ⟨Nat.le_refl 1, Nat.le_add_left 1 2⟩ fun _ => rfl
theorem scIterate : Statement .scIterate := of_length 1 ⟨Nat.le_refl 1, Nat.le_add_left 1 2⟩ fun _ => rfl
theorem scTerminate : Statement .scTerminate := of_length 1 ⟨Nat.le_refl 1, Nat.le_add_left 1 2⟩ fun _ => rfl
theorem scRun : Statement .scRun := of_length 1 ⟨Nat.le_refl 1, Nat.le_add_left 1 2⟩ fun _ => rfl
theorem dcdInitializeCh2 : Statement .dcdInitializeCh2 := of_length 1 ⟨Nat.le_refl 1, Nat.le_add_left 1 2⟩ fun _ => rfl
theorem dcdSendbyteCh2 (b : Byte) : Statement (.dcdSendbyteCh2 b) :=
  of_length 2 ⟨Nat.le_add_left 1 1, Nat.le_add_left 2 1⟩ fun _ => rfl
theorem dcdSendnibbleCh2 (n : Nibble) (rs : Bool) : Statement (.dcdSendnibbleCh2 n rs) :=
  of_length 2 ⟨Nat.le_add_left 1 1, Nat.le_add_left 2 1⟩ fun _ => rfl
theorem dcdWritecommandCh2 (b : Byte) : Statement (.dcdWritecommandCh2 b) :=
  of_length 2 ⟨Nat.le_add_left 1 1, Nat.le_add_left 2 1⟩ fun _ => rfl
theorem dcdWritecharCh2 (b : Byte) : Statement (.dcdWritecharCh2 b) :=
  of_length 2 ⟨Nat.le_add_left 1 1, Nat.le_add_left 2 1⟩ fun _ => rfl
theorem dcdClearCh2 : Statement .dcdClearCh2 := of_length 1 ⟨Nat.le_refl 1, Nat.le_add_left 1 2⟩ fun _ => rfl
theorem dcdMovecursorCh2 (o : BitVec 2) : Statement (.dcdMovecursorCh2 o) :=
  of_length 2 ⟨Nat.le_add_left 1 1, Nat.le_add_left 2 1⟩ fun _ => rfl
theorem dcdDisplayoffCh2 : Statement .dcdDisplayoffCh2 := of_length 1 ⟨Nat.le_refl 1, Nat.le_add_left 1 2⟩ fun _ => rfl
theorem dcClear (c : Chan) : Statement (.dcClear c) :=
  of_length 3 ⟨Nat.le_add_left 1 2, Nat.le_refl 3⟩ fun _ => rfl
theorem dcHome (c : Chan) : Statement (.dcHome c) := of_length 3 ⟨Nat.le_add_left 1 2, Nat.le_refl 3⟩ fun _ => rfl
theorem dcSetcursor (c : Chan) (o : BitVec 2) : Statement (.dcSetcursor c o) :=
  of_length 3 ⟨Nat.le_add_left 1 2, Nat.le_refl 3⟩ fun _ => rfl
theorem dcDisplayoff (c : Chan) : Statement (.dcDisplayoff c) :=
  of_length 3 ⟨Nat.le_add_left 1 2, Nat.le_refl 3⟩ fun _ => rfl
theorem dcWritechar (c : Chan) (b : Byte) : Statement (.dcWritechar c b) :=
  of_length 3 ⟨Nat.le_add_left 1 2, Nat.le_refl 3⟩ fun _ => rfl
theorem mwDigit0 : Statement .mwDigit0 := of_length 1 ⟨Nat.le_refl 1, Nat.le_add_left 1 2⟩ fun _ => rfl
theorem mwDigit1 : Statement .mwDigit1 := of_length 1 ⟨Nat.le_refl 1, Nat.le_add_left 1 2⟩ fun _ => rfl
theorem mwDigit2 : Statement .mwDigit2 := of_length 1 ⟨Nat.le_refl 1, Nat.le_add_left 1 2⟩ fun _ => rfl
theorem mwDigit3 : Statement .mwDigit3 := of_length 1 ⟨Nat.le_refl 1, Nat.le_add_left 1 2⟩ fun _ => rfl
theorem mwDigit4 : Statement .mwDigit4 := of_length 1 ⟨Nat.le_refl 1, Nat.le_add_left 1 2⟩ fun _ => rfl
theorem mwDigit5 : Statement .mwDigit5 := of_length 1 ⟨Nat.le_refl 1, Nat.le_add_left 1 2⟩ fun _ => rfl
theorem mwDigit6 : Statement .mwDigit6 := of_length 1 ⟨Nat.le_refl 1, Nat.le_add_left 1 2⟩ fun _ => rfl
theorem mwDigit7 : Statement .mwDigit7 := of_length 1 ⟨Nat.le_refl 1, Nat.le_add_left 1 2⟩ fun _ => rfl
theorem mwDigit8 : Statement .mwDigit8 := of_length 1 ⟨Nat.le_refl 1, Nat.le_add_left 1 2⟩ fun _ => rfl
theorem mwDigit9 : Statement .mwDigit9 := of_length 1 ⟨Nat.le_refl 1, Nat.le_add_left 1 2⟩ fun _ => rfl
theorem mwEmpty : Statement .mwEmpty := of_length 1 ⟨Nat.le_refl 1, Nat.le_add_left 1 2⟩ fun _ => rfl
theorem bfCommand (c : Chan) (n : Nibble) (en : Bool) : Statement (.bfCommand c n en) :=
  of_length 2 ⟨Nat.le_add_left 1 1, Nat.le_add_left 2 1⟩ fun _ => rfl
theorem bfCharacter (c : Chan) (n : Nibble) (en : Bool) : Statement (.bfCharacter c n en) :=
  of_length 2 ⟨Nat.le_add_left 1 1, Nat.le_add_left 2 1⟩ fun _ => rfl
theorem kpSlot0Key0 : Statement .kpSlot0Key0 := of_length 1 ⟨Nat.le_refl 1, Nat.le_add_left 1 2⟩ fun _ => rfl
theorem kpSlot1Key1 : Statement .kpSlot1Key1 := of_length 1 ⟨Nat.le_refl 1, Nat.le_add_left 1 2⟩ fun _ => rfl
theorem kpSlot2Key2 : Statement .kpSlot2Key2 := of_length 1 ⟨Nat.le_refl 1, Nat.le_add_left 1 2⟩ fun _ => rfl
theorem kpSlot3Key3 : Statement .kpSlot3Key3 := of_length 1 ⟨Nat.le_refl 1, Nat.le_add_left 1 2⟩ fun _ => rfl
theorem kpSlot4Key4 : Statement .kpSlot4Key4 := of_length 1 ⟨Nat.le_refl 1, Nat.le_add_left 1 2⟩ fun _ => rfl
theorem kpSlot5Key5 : Statement .kpSlot5Key5 := of_length 1 ⟨Nat.le_refl 1, Nat.le_add_left 1 2⟩ fun _ => rfl
theorem kpSlot6Key6 : Statement .kpSlot6Key6 := of_length 1 ⟨Nat.le_refl 1, Nat.le_add_left 1 2⟩ fun _ => rfl
theorem kpSlot7Key7 : Statement .kpSlot7Key7 := of_length 1 ⟨Nat.le_refl 1, Nat.le_add_left 1 2⟩ fun _ => rfl
theorem kpSlot8Key8 : Statement .kpSlot8Key8 := of_length 1 ⟨Nat.le_refl 1, Nat.le_add_left 1 2⟩ fun _ => rfl
theorem kpSlot9Key9 : Statement .kpSlot9Key9 := of_length 1 ⟨Nat.le_refl 1, Nat.le_add_left 1 2⟩ fun _ => rfl
theorem kpSlot10KeyA : Statement .kpSlot10KeyA := of_length 1 ⟨Nat.le_refl 1, Nat.le_add_left 1 2⟩ fun _ => rfl
theorem kpSlot11KeyB : Statement .kpSlot11KeyB := of_length 1 ⟨Nat.le_refl 1, Nat.le_add_left 1 2⟩ fun _ => rfl
theorem kpSlot12KeyC : Statement .kpSlot12KeyC := of_length 1 ⟨Nat.le_refl 1, Nat.le_add_left 1 2⟩ fun _ => rfl
theorem kpSlot13KeyD : Statement .kpSlot13KeyD := of_length 1 ⟨Nat.le_refl 1, Nat.le_add_left 1 2⟩ fun _ => rfl
theorem kpSlot14KeyStar : Statement .kpSlot14KeyStar := of_length 1 ⟨Nat.le_refl 1, Nat.le_add_left 1 2⟩ fun _ => rfl
theorem kpSlot15KeyHash : Statement .kpSlot15KeyHash := of_length 1 ⟨Nat.le_refl 1, Nat.le_add_left 1 2⟩ fun _ => rfl

end Sys2Proof.Laws.EncodeFits
end

