-- ==== Sys2Proof/Laws/Prims.lean ====
section
/-! SUPPORT. Everything an operation can do, as a chain of primitive changes: whatever holds across each primitive
change and composes holds across every operation, whether it returns, stops or is cut off by `rst`. -/

namespace Sys2Proof.Machine

open Sys2Proof.Config

/-- The registers and the environment may differ; the trace, the time, the flags, `rst` and what is to come of it, the
slot, the held keys and the parameters do not. -/
structure Quiet (s t : State) : Prop where
  events : t.events = s.events
  time : t.time = s.time
  stNomatch : t.stNomatch = s.stNomatch
  stBusTimeout : t.stBusTimeout = s.stBusTimeout
  stDone : t.stDone = s.stDone
  rst : t.rst = s.rst
  rstIn : t.rstIn = s.rstIn
  slot : t.slot = s.slot
  keys : t.keys = s.keys
  cfg : t.cfg = s.cfg

/-- One primitive change: registers alone, or one event with all that goes with it and `rst` where it may follow. -/
inductive Prim : State → State → Prop
  | quiet {s t : State} (h : Quiet s t) : Prim s t
  | row (s : State) (v : Nibble) : Prim s (writeRows v s).state
  | sample (s : State) (v : Nibble) : Prim s (resetPoint (s.emit (.sample v))).state
  | led (s : State) (b : Bool) : Prim s (writeLed b s).state
  | sleep (s : State) (n : Nat) : Prim s (s.sleep n).state
  | start (s : State) (c : Chan) : Prim s (writeStart c s).state
  | addr (s : State) (c : Chan) (a : Byte) : Prim s (writeAddr c a s).state
  | data (s : State) (c : Chan) (b : Byte) : Prim s (writeData c b s).state
  | ready (s : State) (c : Chan) (w : Nat) (r : Ready) (v : View → View) :
    Prim s (resetPoint (s.readySeen c w r v)).state
  | givenUp (s : State) (c : Chan) (n : Nat) (h : s.cfg.busTimeout = some n) : Prim s (s.readyGivenUp c n).state
  | noMatch (s : State) (p : Byte) : Prim s (s.raise (.noMatch p)).state
  | done (s : State) : Prim s (haltDone s).state

/-- A chain of primitive changes. -/
inductive Prims : State → State → Prop
  | refl (s : State) : Prims s s
  | step {s t u : State} (h : Prims s t) (p : Prim t u) : Prims s u

theorem Prims.one {s t : State} (p : Prim s t) : Prims s t := .step (.refl s) p

theorem Prims.of_quiet {s t : State} (h : Quiet s t) : Prims s t := .one (.quiet h)

theorem Prims.cons {s t u : State} (k : Prims t u) (h : Quiet s t) : Prims s u := by
  induction k with
  | refl => exact .of_quiet h
  | step _ p ih => exact .step ih p

theorem Prims.snoc {s t u : State} (k : Prims s t) (h : Quiet t u) : Prims s u := .step k (.quiet h)

theorem Prims.trans {s t u : State} (h : Prims s t) (k : Prims t u) : Prims s u := by
  induction k with
  | refl => exact h
  | step _ p ih => exact .step ih p

/-- What is reflexive, composes and holds across every primitive change holds across every chain. -/
theorem Prims.lift {R : State → State → Prop} (refl : ∀ s, R s s) (trans : ∀ s t u, R s t → R t u → R s u)
    (prim : ∀ s t, Prim s t → R s t) {s t : State} (h : Prims s t) : R s t := by
  induction h with
  | refl => exact refl _
  | step _ p ih => exact trans _ _ _ ih (prim _ _ p)

theorem Prims.andThen {s : State} {r : Run} {f : State → Run} (h : Prims s r.state)
    (hf : ∀ t, r = .done t → Prims t (f t).state) : Prims s (r.andThen f).state := by
  cases r with
  | done t => exact h.trans (hf t rfl)
  | stop t => exact h

theorem Prims.thenDone {s : State} {r : Run} {g : State → State} (h : Prims s r.state) (hg : ∀ t, Prims t (g t)) :
    Prims s (r.andThen fun t => .done (g t)).state :=
  h.andThen fun t _ => hg t

theorem quiet_modDrv (s : State) (c : Chan) (f : Driver → Driver) : Quiet s (s.modDrv c f) := by
  cases c <;> constructor <;> rfl

theorem quiet_modLine (s : State) (c : Chan) (f : Line → Line) : Quiet s (s.modLine c f) := by
  cases c <;> constructor <;> rfl

theorem readyWait_prims (c : Chan) (v : View → View) (s : State) : Prims s (readyWait c v s).state := by
  rcases readyWait_cases c v s with ⟨w, r, -, -, h⟩ | ⟨-, -, h⟩ | ⟨t, ht, h⟩ <;> rw [h]
  · exact .one (.ready s c w r v)
  · exact .refl s
  · exact .one (.givenUp s c t ht)

theorem sendByte_prims (c : Chan) (b : Byte) (v : View → View) (s : State) : Prims s (sendByte c b v s).state :=
  (Prims.one (.data s c b)).andThen fun t _ => readyWait_prims c v t

theorem stepDelay_prims (s : State) : Prims s (stepDelay s).state := .one (.sleep s _)

theorem nextStep_prims (c : Chan) (s : State) : Prims s (nextStep c s) := .of_quiet (quiet_modDrv s c _)

theorem setPhase_prims (c : Chan) (ph : DPhase) (s : State) : Prims s (setPhase c ph s) :=
  .of_quiet (quiet_modDrv s c _)

theorem setCursor_prims (c : Chan) (v : BitVec 3) (s : State) : Prims s (setCursor c v s) :=
  .of_quiet (quiet_modDrv s c _)

theorem beginTransfer_prims (c : Chan) (rs : Bool) (b : Byte) (s : State) : Prims s (beginTransfer c rs b s) :=
  .of_quiet (quiet_modDrv s c _)

theorem markInitialised_prims (c : Chan) (s : State) : Prims s (markInitialised c s) :=
  (Prims.of_quiet (quiet_modDrv s c _)).trans (.of_quiet (quiet_modLine _ c _))

theorem sendFrame_prims (c : Chan) (n : Nibble) (en rs : Bool) (v : View → View) (s : State) :
    Prims s (sendFrame c n en rs v s).state :=
  ((sendByte_prims c _ v s).andThen fun t _ => stepDelay_prims t).thenDone (nextStep_prims c)

theorem sendNibble_prims (c : Chan) (n : Nibble) (rs : Bool) (v : View → View) (s : State) :
    Prims s (sendNibble c n rs v s).state :=
  (sendFrame_prims c n true rs id s).andThen fun t _ => sendFrame_prims c n false rs v t

theorem transfer_prims (c : Chan) (rs : Bool) (b : Byte) (s : State) : Prims s (transfer c rs b s).state :=
  ((beginTransfer_prims c rs b s).trans (sendNibble_prims c _ rs id _)).andThen
    fun t _ => sendNibble_prims c _ rs _ t

theorem finish_prims (c : Chan) (s : State) : Prims s (finish c s).state :=
  (setPhase_prims c .done s).trans (setPhase_prims c .idle _)

theorem writeCommand_prims (c : Chan) (b : Byte) (s : State) : Prims s (writeCommand c b s).state :=
  (transfer_prims c false b s).andThen fun t _ => finish_prims c t

theorem setCursor_finish_prims (c : Chan) (v : BitVec 3) (s : State) : Prims s (finish c (setCursor c v s)).state :=
  (setCursor_prims c v s).trans (finish_prims c _)

theorem writeChar_prims (c : Chan) (b : Byte) (s : State) : Prims s (writeChar c b s).state :=
  (transfer_prims c true b s).andThen fun t _ => setCursor_finish_prims c _ t

theorem moveCursor_prims (c : Chan) (o : BitVec 2) (s : State) : Prims s (moveCursor c o s).state :=
  (transfer_prims c false _ s).andThen fun t _ => setCursor_finish_prims c _ t

theorem clearDisplay_prims (c : Chan) (s : State) : Prims s (clearDisplay c s).state :=
  (((transfer_prims c false _ s).andThen fun t _ => transfer_prims c false _ t).andThen fun t _ =>
    (setPhase_prims c .settle t).trans (.one (.sleep _ _))).andThen fun t _ => setCursor_finish_prims c _ t

theorem sendRaw_prims (c : Chan) (b : Byte) (s : State) : Prims s (sendRaw c b s).state :=
  (sendByte_prims c b id s).andThen fun t _ => stepDelay_prims t

theorem sendPairs_prims (c : Chan) (ps : List (Byte × Byte)) (j : Nat) (s : State) :
    Prims s (sendPairs c ps j s).state := by
  induction ps generalizing j s with
  | nil => exact .refl s
  | cons p ps ih =>
    obtain ⟨first, second⟩ := p
    have h1 : Prims s (sendRaw c first (setSeq c j s)).state :=
      (Prims.of_quiet (quiet_modDrv s c _)).trans (sendRaw_prims c first _)
    exact (h1.andThen fun t _ => sendRaw_prims c second t).andThen fun t _ => ih (j + 1) t

theorem startBus_prims (c : Chan) (s : State) : Prims s (startBus c s).state :=
  ((setPhase_prims c .start s).trans (.one (.start _ c))).andThen fun t _ => readyWait_prims c id t

theorem addressBus_prims (c : Chan) (s : State) : Prims s (addressBus c s).state :=
  ((setPhase_prims c .addr s).trans (.one (.addr _ c _))).andThen fun t _ => readyWait_prims c id t

theorem initDisplay_prims (c : Chan) (s : State) : Prims s (initDisplay c s).state :=
  (((startBus_prims c s).andThen fun t _ => addressBus_prims c t).andThen fun t _ =>
    (setPhase_prims c .seq t).trans (sendPairs_prims c _ 0 _)).andThen fun t _ =>
      (markInitialised_prims c t).trans (clearDisplay_prims c _)

/-- A change of registers alone, decided field by field. -/
theorem Quiet.of_eq {s t : State} (h : (t.events, t.time, t.stNomatch, t.stBusTimeout, t.stDone, t.rst, t.rstIn, t.slot,
    t.keys, t.cfg) = (s.events, s.time, s.stNomatch, s.stBusTimeout, s.stDone, s.rst, s.rstIn, s.slot, s.keys,
      s.cfg)) :
    Quiet s t := by
  simp only [Prod.mk.injEq] at h
  obtain ⟨h1, h2, h3, h4, h5, h6, h7, h8, h9, h10⟩ := h
  exact ⟨h1, h2, h3, h4, h5, h6, h7, h8, h9, h10⟩

/-- A quiet change, a chain, and a chain after it. -/
theorem Prims.cons' {s t u v : State} (l : Prims u v) (k : Prims t u) (h : Quiet s t) : Prims s v :=
  (k.cons h).trans l

theorem setKs_prims (ph : KsPhase) (s : State) : Prims s (setKs ph s) := .of_quiet (.of_eq rfl)

theorem nextRow_prims (s : State) : Prims s (nextRow s) := .of_quiet (.of_eq rfl)

theorem deliverDigit_prims (d : Nibble) (s : State) : Prims s (deliverDigit d s).state := .of_quiet (.of_eq rfl)

theorem noDigit_prims (s : State) : Prims s (noDigit s).state :=
  (Prims.one (.noMatch s _)).andThen fun t _ => deliverDigit_prims _ t

theorem lookupPattern_prims (s : State) : Prims s (lookupPattern s).state := by
  unfold lookupPattern
  cases findSlot s.ksPat s.cfg.keymap 0 with
  | none => exact (noDigit_prims _).cons (.of_eq rfl)
  | some j =>
    dsimp only
    split
    · exact .of_quiet (.of_eq rfl)
    · exact (noDigit_prims _).cons (.of_eq rfl)

theorem capturePattern_prims (c : Nibble) (s : State) : Prims s (capturePattern c s).state :=
  have h : Prims s (setKs .lookup { s with ksPat := keyPattern s.kpRow c }) := .of_quiet (.of_eq rfl)
  (h.trans (.one (.row _ _))).andThen fun t _ => lookupPattern_prims t

theorem strobeRow_prims (s : State) : Prims s (strobeRow s).state :=
  ((setKs_prims .drive s).trans (.one (.row _ _))).andThen fun t _ => (setKs_prims .settle t).trans (.one (.sleep _ _))

theorem sampleColumns_prims (s : State) : Prims s (sampleColumns s).state :=
  (Prims.one (.sample _ _)).cons (.of_eq rfl)

theorem scanRow_prims (more : State → Run) (s : State) (h : ∀ t, Prims t (more t).state) :
    Prims s (scanRow more s).state := by
  refine (strobeRow_prims s).andThen fun t _ => (sampleColumns_prims t).andThen fun u _ => ?_
  split
  · exact capturePattern_prims _ u
  · exact (nextRow_prims u).trans (h _)

theorem scanRows_prims (n : Nat) (s : State) : Prims s (scanRows n s).state := by
  induction n generalizing s with
  | zero => exact .refl s
  | succ n ih => exact scanRow_prims _ s ih

theorem readDigit_prims (s : State) : Prims s (readDigit s).state :=
  (scanRows_prims _ _).cons (.of_eq rfl)

theorem resumeScan_prims (s : State) : Prims s (resumeScan s).state := scanRows_prims _ s

theorem slotPattern_prims (k : Nat) (s : State) : Prims s (slotPattern k s).state :=
  (lookupPattern_prims _).cons (.of_eq rfl)

theorem setPlayer_prims (st : LmpState) (s : State) : Prims s (setPlayer st s) := .of_quiet (.of_eq rfl)

theorem markOn_prims (w : Byte) (i : Nat) (s : State) : Prims s (markOn w i s).state :=
  have h : Prims s (setPlayer .markOn { s with lmpIdx := BitVec.ofNat 3 i }) := .of_quiet (.of_eq rfl)
  (h.trans (.one (.led _ true))).andThen fun t _ => .one (.sleep t _)

theorem gapOff_prims (s : State) : Prims s (gapOff s).state :=
  ((setPlayer_prims .gapOff s).trans (.one (.led _ false))).andThen fun t _ => .one (.sleep t _)

theorem playMarks_prims (w : Byte) (n i : Nat) (s : State) : Prims s (playMarks w n i s).state := by
  induction n generalizing i s with
  | zero => exact .refl s
  | succ n ih => exact ((markOn_prims w i s).andThen fun t _ => gapOff_prims t).andThen fun t _ => ih (i + 1) t

theorem playWord_prims (w : Byte) (s : State) : Prims s (playWord w s).state :=
  ((playMarks_prims w _ 0 s).andThen fun t _ =>
    (setPlayer_prims .gapOff t).trans (.one (.sleep _ _))).thenDone (setPlayer_prims .idle)

theorem setSc_prims (ph : ScPhase) (s : State) : Prims s (setSc ph s) := .of_quiet (.of_eq rfl)

theorem startSession_prims (s : State) : Prims s (startSession s).state :=
  (((setSc_prims .init1 s).trans (initDisplay_prims .ch1 _)).andThen fun t _ =>
    (setSc_prims .init2 t).trans (initDisplay_prims .ch2 _)).thenDone (setSc_prims .check)

theorem windowSettle_prims (s : State) : Prims s (windowSettle s).state :=
  (Prims.one (.sleep (emptyWindow s) _)).cons (.of_eq rfl)

theorem windowBoundary_prims (s : State) : Prims s (windowBoundary s).state := by
  unfold windowBoundary
  split
  · exact (((setSc_prims .wclr1 s).trans (clearDisplay_prims .ch1 _)).andThen fun t _ =>
      (setSc_prims .wclr2 t).trans (clearDisplay_prims .ch2 _)).andThen fun t _ =>
        (setSc_prims .wsettle t).trans (windowSettle_prims _)
  · exact .refl s

theorem readPhase_prims (s : State) : Prims s (readPhase s).state :=
  ((setSc_prims .read s).trans (readDigit_prims _)).thenDone fun _ => .of_quiet (.of_eq rfl)

theorem cipherPhase_prims (s : State) : Prims s (cipherPhase s) := .of_quiet (.of_eq rfl)

theorem positionPhase_prims (s : State) : Prims s (positionPhase s).state := by
  unfold positionPhase
  dsimp only
  split
  · exact (setSc_prims _ s).trans (clearDisplay_prims .ch1 _)
  · exact (setSc_prims _ s).trans (moveCursor_prims .ch1 _ _)

theorem writeMarks_prims (n i : Nat) (s : State) : Prims s (writeMarks n i s).state := by
  induction n generalizing i s with
  | zero => exact .refl s
  | succ n ih =>
    have h : Prims s (writeMark i s).state := (writeChar_prims .ch2 _ _).cons (.of_eq rfl)
    exact h.andThen fun t _ => ih (i + 1) t

theorem iterateSession_prims (s : State) : Prims s (iterateSession s).state :=
  (((((((((windowBoundary_prims s).andThen fun t _ => readPhase_prims t).thenDone
    cipherPhase_prims).andThen fun t _ => positionPhase_prims t).andThen fun t _ =>
    (setSc_prims .ch1wr t).trans (writeChar_prims .ch1 _ _)).andThen fun t _ =>
    (setSc_prims .ch2clr t).trans (clearDisplay_prims .ch2 _)).andThen fun t _ =>
    (setSc_prims .ch2dig t).trans (writeChar_prims .ch2 _ _)).andThen fun t _ =>
    (setSc_prims .ch2mrk t).trans (writeMarks_prims _ 0 _)).andThen fun t _ =>
    (setSc_prims .play t).trans (playWord_prims _ _)).thenDone fun _ => .of_quiet (.of_eq rfl)

theorem terminateSession_prims (s : State) : Prims s (terminateSession s).state :=
  (((setSc_prims .off1 s).trans (writeCommand_prims .ch1 _ _)).andThen fun t _ =>
    (setSc_prims .off2 t).trans (writeCommand_prims .ch2 _ _)).andThen fun t _ => .one (.done t)

theorem iterations_prims (n : Nat) (s : State) : Prims s (iterations n s).state := by
  induction n generalizing s with
  | zero => exact .refl s
  | succ n ih =>
    simp only [iterations]
    split
    · exact .refl s
    · exact (iterateSession_prims s).andThen fun t _ => ih t

theorem runSession_prims (s : State) : Prims s (runSession s).state :=
  ((startSession_prims s).andThen fun t _ => iterations_prims _ t).andThen fun t _ => terminateSession_prims t

theorem ifInitialised_prims {c : Chan} {s t : State} {r : Run} (hr : Prims s r.state)
    (h : ifInitialised c s r = .next t) : Prims s t := by
  unfold ifInitialised at h
  split at h
  · rw [Run.result_eq] at h; cases h; exact hr
  · cases h

theorem ifUninitialised_prims {c : Chan} {s t : State} {r : Host.Outcome State Fault Refusal}
    (hr : r = .next t → Prims s t) (h : ifUninitialised c s r = .next t) : Prims s t := by
  unfold ifUninitialised at h
  split at h
  · cases h
  · split at h
    · cases h
    · exact hr h

theorem result_prims {s t : State} {r : Run} (hr : Prims s r.state) (h : r.result = .next t) : Prims s t := by
  rw [Run.result_eq] at h; cases h; exact hr

/-- Every instruction that answers a next state reaches it by a chain of primitive changes. -/
theorem exec_prims (i : Instr) (s t : State) (h : exec i s = .next t) : Prims s t := by
  cases i with
  | ksReaddigit => exact result_prims (readDigit_prims s) h
  | ceEncrypt d q => cases h; exact .of_quiet (.of_eq rfl)
  | meEncode d => cases h; exact .of_quiet (.of_eq rfl)
  | dcdInitializeCh1 => exact ifUninitialised_prims (result_prims (initDisplay_prims _ s)) h
  | dcdInitializeCh2 => exact ifUninitialised_prims (result_prims (initDisplay_prims _ s)) h
  | dcdSendbyteCh1 b => exact ifInitialised_prims (sendByte_prims _ _ _ s) h
  | dcdSendbyteCh2 b => exact ifInitialised_prims (sendByte_prims _ _ _ s) h
  | dcdSendnibbleCh1 n rs => exact ifInitialised_prims (sendNibble_prims _ _ _ _ s) h
  | dcdSendnibbleCh2 n rs => exact ifInitialised_prims (sendNibble_prims _ _ _ _ s) h
  | dcdWritecommandCh1 b => exact ifInitialised_prims (writeCommand_prims _ _ s) h
  | dcdWritecommandCh2 b => exact ifInitialised_prims (writeCommand_prims _ _ s) h
  | dcdWritecharCh1 b => exact ifInitialised_prims (writeChar_prims _ _ s) h
  | dcdWritecharCh2 b => exact ifInitialised_prims (writeChar_prims _ _ s) h
  | dcdClearCh1 => exact ifInitialised_prims (clearDisplay_prims _ s) h
  | dcdClearCh2 => exact ifInitialised_prims (clearDisplay_prims _ s) h
  | dcdMovecursorCh1 o => exact ifInitialised_prims (moveCursor_prims _ _ s) h
  | dcdMovecursorCh2 o => exact ifInitialised_prims (moveCursor_prims _ _ s) h
  | dcdDisplayoffCh1 => exact ifInitialised_prims (writeCommand_prims _ _ s) h
  | dcdDisplayoffCh2 => exact ifInitialised_prims (writeCommand_prims _ _ s) h
  | lmpPlay w =>
    simp only [exec, execLmpPlay] at h
    split at h
    · exact result_prims (playWord_prims w s) h
    · cases h
  | scStart =>
    exact ifUninitialised_prims (ifUninitialised_prims (result_prims (startSession_prims s))) h
  | scIterate =>
    simp only [exec, execScIterate, ifSessionOpen] at h
    split at h
    · exact ifInitialised_prims (iterateSession_prims s) h
    · cases h
  | scTerminate =>
    simp only [exec, execScTerminate, ifSessionOpen] at h
    split at h
    · exact ifInitialised_prims (terminateSession_prims s) h
    · cases h
  | scRun => exact ifUninitialised_prims (ifUninitialised_prims (result_prims (runSession_prims s))) h
  | dcClear c =>
    exact ifInitialised_prims ((transfer_prims c _ _ s).andThen fun t _ => setCursor_finish_prims c _ t) h
  | dcHome c =>
    exact ifInitialised_prims ((transfer_prims c _ _ s).andThen fun t _ => setCursor_finish_prims c _ t) h
  | dcSetcursor c o => exact ifInitialised_prims (moveCursor_prims c o s) h
  | dcDisplayoff c => exact ifInitialised_prims (writeCommand_prims c _ s) h
  | dcWritechar c b => exact ifInitialised_prims (writeChar_prims c b s) h
  | bfCommand c n en => exact ifInitialised_prims (sendFrame_prims c n en _ _ s) h
  | bfCharacter c n en => exact ifInitialised_prims (sendFrame_prims c n en _ _ s) h
  | mwDigit0 => cases h; exact .of_quiet (.of_eq rfl)
  | mwDigit1 => cases h; exact .of_quiet (.of_eq rfl)
  | mwDigit2 => cases h; exact .of_quiet (.of_eq rfl)
  | mwDigit3 => cases h; exact .of_quiet (.of_eq rfl)
  | mwDigit4 => cases h; exact .of_quiet (.of_eq rfl)
  | mwDigit5 => cases h; exact .of_quiet (.of_eq rfl)
  | mwDigit6 => cases h; exact .of_quiet (.of_eq rfl)
  | mwDigit7 => cases h; exact .of_quiet (.of_eq rfl)
  | mwDigit8 => cases h; exact .of_quiet (.of_eq rfl)
  | mwDigit9 => cases h; exact .of_quiet (.of_eq rfl)
  | mwEmpty => cases h; exact .of_quiet (.of_eq rfl)
  | kpSlot0Key0 => exact result_prims (slotPattern_prims _ s) h
  | kpSlot1Key1 => exact result_prims (slotPattern_prims _ s) h
  | kpSlot2Key2 => exact result_prims (slotPattern_prims _ s) h
  | kpSlot3Key3 => exact result_prims (slotPattern_prims _ s) h
  | kpSlot4Key4 => exact result_prims (slotPattern_prims _ s) h
  | kpSlot5Key5 => exact result_prims (slotPattern_prims _ s) h
  | kpSlot6Key6 => exact result_prims (slotPattern_prims _ s) h
  | kpSlot7Key7 => exact result_prims (slotPattern_prims _ s) h
  | kpSlot8Key8 => exact result_prims (slotPattern_prims _ s) h
  | kpSlot9Key9 => exact result_prims (slotPattern_prims _ s) h
  | kpSlot10KeyA => exact result_prims (slotPattern_prims _ s) h
  | kpSlot11KeyB => exact result_prims (slotPattern_prims _ s) h
  | kpSlot12KeyC => exact result_prims (slotPattern_prims _ s) h
  | kpSlot13KeyD => exact result_prims (slotPattern_prims _ s) h
  | kpSlot14KeyStar => exact result_prims (slotPattern_prims _ s) h
  | kpSlot15KeyHash => exact result_prims (slotPattern_prims _ s) h

end Sys2Proof.Machine
end

