-- ==== Sys2Proof/Laws/Scanner.lean ====
section
/-! SUPPORT. The table search, the capture and one idle strobe, in closed form; the marks of a play. -/

namespace Sys2Proof.Machine

open Sys2Proof.Config

/-- Everything the table search does, without a reset at its event. -/
theorem lookupPattern_eq (s : State) (hr : s.rstIn = none) : lookupPattern s = .done (afterLookup s.ksPat s) := by
  unfold lookupPattern afterLookup patternDigit noMatchEvents digitSlot noDigit
  cases findSlot s.ksPat s.cfg.keymap 0 with
  | none =>
    rw [raise_noMatch (by simpa using hr)]
    simp [deliverDigit, State.setNomatch, State.emit, State.returnDigit, setKs]
  | some j =>
    dsimp only
    rw [raise_noMatch (by simpa using hr)]
    by_cases h : (keymapRom s.cfg j).isDigit = true <;>
      simp [h, deliverDigit, State.setNomatch, State.emit, State.returnDigit, setKs]

/-- A capture: the pattern of the rows as driven and the sample, the rows released, the table searched. -/
theorem capturePattern_eq (c : Nibble) (s : State) (hr : s.rstIn = none) :
    capturePattern c s = .done (afterLookup (keyPattern s.kpRow c)
      { s with ksPat := keyPattern s.kpRow c, ksPhase := .lookup, kpRow := allInactive s.cfg,
               events := s.events ++ [.row (allInactive s.cfg)] }) := by
  unfold capturePattern writeRows
  rw [resetPoint_none (by simpa using hr), Run.done_andThen, lookupPattern_eq _ (by simpa using hr)]
  rfl

/-- The sample that the strobe of the current row gives. -/
def strobedColumns (s : State) : Nibble := s.cols.headD (columns s.cfg s.keys (strobe s.cfg s.ksRow))

/-- The state after one strobe and its sample. -/
def strobed (s : State) : State :=
  { s with ksPhase := .sample, kpRow := strobe s.cfg s.ksRow, dlyReq := false, dlyLen := s.cfg.tRowSettle,
           cols := s.cols.tail,
           events := s.events ++ [.row (strobe s.cfg s.ksRow), .delay s.cfg.tRowSettle, .sample (strobedColumns s)],
           time := s.time + s.cfg.tRowSettle }

/-- One turn of the scan without a reset in it: the strobe, the sample, and a capture or the next row. -/
theorem scanRow_eq (more : State → Run) (s : State) (hr : s.rstIn = none) :
    scanRow more s =
      if strobedColumns s ≠ s.cfg.colIdle then capturePattern (strobedColumns s) (strobed s)
      else more (nextRow (strobed s)) := by
  unfold scanRow strobeRow writeRows
  rw [resetPoint_none (by simpa using hr), Run.done_andThen, sleep_none (by simpa using hr), Run.done_andThen]
  unfold sampleColumns
  rw [resetPoint_none (by simpa using hr), Run.done_andThen]
  simp [columnsNow, strobed, strobedColumns, State.driveRows, State.beginSleep, State.endSleep, State.emit, setKs]

/-- One mark of a play without a reset in it. -/
theorem playMark_eq (w : Byte) (i : Nat) (s : State) (hr : s.rstIn = none) :
    playMark w i s = .done { s with
      lmpState := .gapOff, lmpIdx := BitVec.ofNat 3 i, led := false, dlyReq := false, dlyLen := s.cfg.tDot,
      events := s.events ++ markEvents s.cfg (markAt w i),
      time := s.time + (holdTime s.cfg (markAt w i) + s.cfg.tDot) } := by
  unfold playMark markOn gapOff writeLed
  rw [resetPoint_none (by simpa using hr), Run.done_andThen, sleep_none (by simpa using hr), Run.done_andThen,
    resetPoint_none (by simpa using hr), Run.done_andThen, sleep_none (by simpa using hr)]
  simp [State.beginSleep, State.endSleep, State.driveLed, State.emit, setPlayer, markEvents, Nat.add_assoc]

/-- The time of the marks `i` to `i + n - 1` of a word with their gaps. -/
def marksTime (p : Config.Params) (w : Byte) (n i : Nat) : Nat :=
  ((List.range' i n).map fun j => holdTime p (markAt w j) + p.tDot).sum

/-- At least one mark of a play, without a reset in it: its events, its time, the line off. -/
theorem playMarks_eq (w : Byte) (n i : Nat) (s : State) (hr : s.rstIn = none) :
    playMarks w (n + 1) i s = .done { s with
      lmpState := .gapOff, lmpIdx := BitVec.ofNat 3 (i + n), led := false, dlyReq := false, dlyLen := s.cfg.tDot,
      events := s.events ++ (List.range' i (n + 1)).flatMap (fun j => markEvents s.cfg (markAt w j)),
      time := s.time + marksTime s.cfg w (n + 1) i } := by
  induction n generalizing i s with
  | zero => simp [playMarks, playMark_eq _ _ _ hr, marksTime]
  | succ n ih =>
    rw [playMarks, playMark_eq _ _ _ hr, Run.done_andThen, ih _ _ (by exact hr)]
    simp only [marksTime, List.range'_succ (n := n + 1), List.flatMap_cons, List.map_cons, List.sum_cons,
      List.append_assoc, Nat.add_assoc, Nat.add_comm 1 n]

end Sys2Proof.Machine
end

