-- ==== Sys2Proof/Tests/Slice0.lean ====
section
/-! SUPPORT. Small tests. Words are written bit by bit from 30_encoding.md; expected results are the spec's worked
examples (the rule is named) or the vectors of 95_test_vectors.md. The last part shows, for each statement with
hypotheses, a concrete state and operands that meet them. -/

namespace Sys2Proof.Tests

open Sys2Proof Sys2Proof.Config Sys2Proof.Machine

/-! ## Well-formedness: an ill-formed term for each check, which the check refuses -/

theorem test_wf_lmpPlay_len6 : (Instr.lmpPlay 0b11000000).wf default = false := by decide
theorem test_wf_lmpPlay_len7 : (Instr.lmpPlay 0b11100000).wf default = false := by decide
theorem test_wf_lmpPlay_len5 : (Instr.lmpPlay 0b10111111).wf default = true := by decide
theorem test_wf_position :
    ((Instr.ceEncrypt 7 (2 ^ 32)).wf default || (Instr.ceEncrypt 7 64).wf { default with posWidth := 6 }) = false := by
  decide
theorem test_wf_position_last :
    ((Instr.ceEncrypt 7 (2 ^ 32 - 1)).wf default && (Instr.ceEncrypt 7 63).wf { default with posWidth := 6 }) = true := by
  decide
theorem test_wf_default : default.wf = true := by decide
theorem test_wf_key_empty : ({ default with key := [] } : Params).keyOk = false := by decide
theorem test_wf_key_lowercase : ({ default with key := [0x53, 0x65] } : Params).keyOk = false := by decide
theorem test_wf_iterCount : ({ default with iterCount := 2 ^ 32 } : Params).iterCountOk = false := by decide
/-- A narrower and a wider position counter (00_scope.md R11): `2^POS_WIDTH > ITER_COUNT`. -/
theorem test_wf_posWidth :
    (!({ default with posWidth := 6 } : Params).iterCountOk && ({ default with posWidth := 7 } : Params).iterCountOk &&
      ({ default with posWidth := 40, iterCount := 2 ^ 32 } : Params).iterCountOk) = true := by decide
theorem test_wf_window : ({ default with window := 5 } : Params).windowOk = false := by decide
theorem test_wf_keymap_size : ({ default with keymap := defaultKeymap.take 15 } : Params).keymapSizeOk = false := by
  decide
theorem test_wf_keymap_repeated :
    ({ default with keymap := defaultKeymap.take 15 ++ [⟨0x7D, false, 0⟩] } : Params).keymapDistinctOk = false := by
  decide
theorem test_wf_keymap_slot0 :
    ({ default with keymap := ⟨0x7D, true, 1⟩ :: defaultKeymap.drop 1 } : Params).keymapSlot0Ok = false := by decide
theorem test_wf_keymap_digit_missing :
    ({ default with keymap := defaultKeymap.take 9 ++ ⟨0xBB, false, 0⟩ :: defaultKeymap.drop 10 } : Params).keymapDigitsOk
      = false := by decide
theorem test_wf_keymap_digit_above9 :
    ({ default with keymap := defaultKeymap.take 10 ++ ⟨0xE7, true, 10⟩ :: defaultKeymap.drop 11 } : Params).keymapDigitsOk
      = false := by decide
theorem test_wf_initSeq : ({ default with initSeq := defaultInitSeq.drop 1 } : Params).initSeqOk = false := by decide
theorem test_wf_cursorBase : ({ default with cursorBase := 0xFD } : Params).cursorBaseOk = false := by decide
theorem test_wf_commands : ({ default with cmdHome := 0x82 } : Params).commandsOk = false := by decide

/-! ## Decoding: the word of every constructor, written from the spec's encoding of it -/

/-- Whether the bytes decode to the instruction, in the default build. -/
def reads (f : Format) (bs : List Byte) (i : Instr) : Bool :=
  match decode default f bs with
  | .ok j => decide (j = i)
  | .error _ => false

/-- Whether the bytes are rejected for the reason. -/
def rejects (f : Format) (bs : List Byte) (e : DecodeError) : Bool :=
  match decode default f bs with
  | .ok _ => false
  | .error e' => decide (e' = e)

/-- Identifiers of R101: 0, `ch`, `unit`, `op`. -/
theorem test_decode_ks : reads .op [0b0_0_000_000] .ksReaddigit = true := by decide
theorem test_decode_ce :
    reads .op [0b0_0_001_000, 0b00000111, 0x04, 0x03, 0x02, 0x01] (.ceEncrypt 7 0x01020304) = true := by decide
theorem test_decode_me : reads .op [0b0_0_010_000, 0b00001001] (.meEncode 9) = true := by decide
theorem test_decode_dcd_ch1 :
    (reads .op [0b0_0_011_000] .dcdInitializeCh1 && reads .op [0b0_0_011_001, 0x3D] (.dcdSendbyteCh1 0x3D) &&
      reads .op [0b0_0_011_010, 0b000_1_0011] (.dcdSendnibbleCh1 3 true) &&
      reads .op [0b0_0_011_011, 0x01] (.dcdWritecommandCh1 1) &&
      reads .op [0b0_0_011_100, 0x37] (.dcdWritecharCh1 0x37) && reads .op [0b0_0_011_101] .dcdClearCh1 &&
      reads .op [0b0_0_011_110, 0b10] (.dcdMovecursorCh1 2) && reads .op [0b0_0_011_111] .dcdDisplayoffCh1)
      = true := by decide
theorem test_decode_dcd_ch2 :
    (reads .op [0b0_1_011_000] .dcdInitializeCh2 && reads .op [0b0_1_011_001, 0x3D] (.dcdSendbyteCh2 0x3D) &&
      reads .op [0b0_1_011_010, 0b000_0_1000] (.dcdSendnibbleCh2 8 false) &&
      reads .op [0b0_1_011_011, 0x01] (.dcdWritecommandCh2 1) &&
      reads .op [0b0_1_011_100, 0x37] (.dcdWritecharCh2 0x37) && reads .op [0b0_1_011_101] .dcdClearCh2 &&
      reads .op [0b0_1_011_110, 0b11] (.dcdMovecursorCh2 3) && reads .op [0b0_1_011_111] .dcdDisplayoffCh2)
      = true := by decide
theorem test_decode_lmp : reads .op [0b0_0_100_000, 0b101_00000] (.lmpPlay 0xA0) = true := by decide
theorem test_decode_sc :
    (reads .op [0b0_0_101_000] .scStart && reads .op [0b0_0_101_001] .scIterate &&
      reads .op [0b0_0_101_010] .scTerminate && reads .op [0b0_0_101_011] .scRun) = true := by decide

/-- R92: `byte`, then `rs`; the channel byte by assumption 3. -/
theorem test_decode_dc :
    (reads .dc [0b00000001, 0, 0] (.dcClear .ch1) && reads .dc [0b00000010, 0, 1] (.dcHome .ch2) &&
      reads .dc [0b10000011, 0, 0] (.dcSetcursor .ch1 3) && reads .dc [0b00001000, 0, 1] (.dcDisplayoff .ch2) &&
      reads .dc [0b00000001, 1, 0] (.dcWritechar .ch1 0x01)) = true := by decide

/-- R98: `len` = 5, bit `i` the `i`-th mark, 1 for a dash. -/
theorem test_decode_mw :
    (reads .mw [0b101_11111] .mwDigit0 && reads .mw [0b101_11110] .mwDigit1 && reads .mw [0b101_11100] .mwDigit2 &&
      reads .mw [0b101_11000] .mwDigit3 && reads .mw [0b101_10000] .mwDigit4 && reads .mw [0b101_00000] .mwDigit5 &&
      reads .mw [0b101_00001] .mwDigit6 && reads .mw [0b101_00011] .mwDigit7 && reads .mw [0b101_00111] .mwDigit8 &&
      reads .mw [0b101_01111] .mwDigit9 && reads .mw [0b000_00000] .mwEmpty) = true := by decide

/-- R90: `nib`, `bl` = 1, `en`, `rw` = 0, `rs`. -/
theorem test_decode_bf :
    (reads .bf [0b1000_1_1_0_0, 0] (.bfCommand .ch1 8 true) && reads .bf [0b1000_1_0_0_0, 1] (.bfCommand .ch2 8 false) &&
      reads .bf [0b0011_1_1_0_1, 1] (.bfCharacter .ch2 3 true)) = true := by decide

/-- R84, R83: row `r` low in the high nibble, column `k` low in the low nibble. -/
theorem test_decode_kp :
    (reads .kp [0b0111_1101] .kpSlot0Key0 && reads .kp [0b1110_1110] .kpSlot1Key1 &&
      reads .kp [0b1110_1101] .kpSlot2Key2 && reads .kp [0b1110_1011] .kpSlot3Key3 &&
      reads .kp [0b1101_1110] .kpSlot4Key4 && reads .kp [0b1101_1101] .kpSlot5Key5 &&
      reads .kp [0b1101_1011] .kpSlot6Key6 && reads .kp [0b1011_1110] .kpSlot7Key7 &&
      reads .kp [0b1011_1101] .kpSlot8Key8 && reads .kp [0b1011_1011] .kpSlot9Key9 &&
      reads .kp [0b1110_0111] .kpSlot10KeyA && reads .kp [0b1101_0111] .kpSlot11KeyB &&
      reads .kp [0b1011_0111] .kpSlot12KeyC && reads .kp [0b0111_0111] .kpSlot13KeyD &&
      reads .kp [0b0111_1110] .kpSlot14KeyStar && reads .kp [0b0111_1011] .kpSlot15KeyHash) = true := by decide

/-- R103: each reserved value is rejected for its own reason. -/
theorem test_decode_reserved :
    (rejects .op [0x80] .bit7Set && rejects .op [0x08, 7, 0, 0, 0] .truncated &&
      rejects .op [0x30] .reservedUnit && rejects .op [0x01] .reservedOperation &&
      rejects .op [0x40] .channelOnOtherUnit && rejects .op [0x19] .truncated &&
      rejects .op [0x1E, 4] .operandOutOfRange && rejects .dc [0x01, 2, 0] .reservedBits &&
      rejects .dc [0x03, 0, 0] .unlistedCommand && rejects .mw [0xC0] .reservedMorseLength &&
      rejects .mw [0x01] .unlistedMorseWord && rejects .bf [0x0A, 0] .readFrame &&
      rejects .bf [0x04, 0] .backlightBit && rejects .kp [0xDC] .unlistedPattern) = true := by decide

/-- Table words: 8 bits, and 9 bits for a display command or character. -/
theorem test_table_words :
    (decodeTableWord 8 0x5D == some .dcdClearCh2 && decodeTableWord 9 0x135 == some (.dcWritechar .ch1 0x35) &&
      decodeTableWord 9 0x008 == some (.dcDisplayoff .ch1) && decodeTableWord 8 0xA7 == some .mwDigit8 &&
      decodeTableWord 8 0xEE == some .kpSlot1Key1 && decodeTableWord 8 0x8C == some (.bfCommand .ch1 8 true))
      = true := by decide

/-! ## One operation on a small state -/

/-- The trace of SC.START's requests, each answered. -/
def startTrace : List Event :=
  [.busStart .ch1, .busReady .ch1, .busAddr .ch1 Config.busAddr1, .busReady .ch1,
   .busStart .ch2, .busReady .ch2, .busAddr .ch2 Config.busAddr2, .busReady .ch2]

/-- Both channels initialised, displays on, at the loop test; every ready-wait is answered at once. -/
def demo : State :=
  { State.reset with
    drv1 := { Driver.reset with inited := true }, drv2 := { Driver.reset with inited := true },
    line1 := { Line.initial with started := true, view := ⟨[], 0, true⟩ },
    line2 := { Line.initial with started := true, view := ⟨[], 0, true⟩ },
    events := startTrace, scPhase := .check }

/-- A property of the next state; false of a fault or a refusal. -/
def next (r : Host.Outcome State Fault Refusal) (q : State → Bool) : Bool :=
  match r with
  | .next t => q t
  | .fault _ => false
  | .refused _ => false

theorem exists_of_next {r : Host.Outcome State Fault Refusal} {q : State → Bool} (h : next r q = true) :
    ∃ t, r = .next t ∧ q t = true := by
  cases r with
  | next t => exact ⟨t, rfl, h⟩
  | fault e => cases h
  | refused e => cases h

/-- The bytes handed to the bus of a channel. -/
def bytesOf (c : Chan) : List Event → List Byte
  | [] => []
  | .busData c' b :: es => if c' = c then b :: bytesOf c es else bytesOf c es
  | _ :: es => bytesOf c es

/-- Key (2, 0) held: the key 7 of R84. -/
def demo7 : State := { demo with keys := 0x0100 }

/-- R121's worked example: the rows in turn, and what the scanner leaves. -/
theorem test_ks_key7 :
    next (exec .ksReaddigit demo7) (fun t => t.ret == .digit 7 && t.ksPat == 0xBE && t.kpRow == 0xF &&
      (t.events.filter fun e => match e with | .row _ | .sample _ => true | _ => false) ==
        [.row 0xE, .sample 0xF, .row 0xD, .sample 0xF, .row 0xB, .sample 0xE, .row 0xF]) = true := by decide
/-- Vector V-K7: 4 and 5 held, two columns of one row. -/
theorem test_ks_two_keys_one_row :
    next (exec .ksReaddigit { demo with keys := 0x0030 }) (fun t => t.ret == .digit 0 && t.stNomatch &&
      t.events.getLast? == some (.noMatch 0xDC)) = true := by decide
/-- R141's worked example. -/
theorem test_ce_scenario : next (exec (.ceEncrypt 7 0) demo) (fun t => t.ret == .digit 5) = true := by decide
/-- Vectors V-C10 and V-C11. -/
theorem test_ce_corners :
    (next (exec (.ceEncrypt 1 0xFFFFFFFF) demo) (fun t => t.ret == .digit 1) &&
      next (exec (.ceEncrypt 15 0) demo) (fun t => t.ret == .digit 3)) = true := by decide
/-- R151's worked examples. -/
theorem test_me_examples :
    (next (exec (.meEncode 0) demo) (fun t => t.ret == .word 0xBF) &&
      next (exec (.meEncode 5) demo) (fun t => t.ret == .word 0xA0)) = true := by decide
/-- R152. -/
theorem test_me_undefined_digit : next (exec (.meEncode 12) demo) (fun t => t.ret == .word 0x00) = true := by decide
/-- R164's worked example. -/
theorem test_sendbyte :
    next (exec (.dcdSendbyteCh2 0x3D) demo) (fun t => t.events.drop 8 == [.busData .ch2 0x3D, .busReady .ch2])
      = true := by decide
/-- R166's worked example. -/
theorem test_sendnibble :
    next (exec (.dcdSendnibbleCh1 8 false) demo) (fun t => bytesOf .ch1 t.events == [0x8C, 0x88] &&
      t.drv1.step == 2 && t.drv2 == demo.drv2) = true := by decide
/-- R169's worked example. -/
theorem test_writecommand :
    next (exec (.dcdWritecommandCh1 0x01) demo) (fun t => bytesOf .ch1 t.events == [0x0C, 0x08, 0x1C, 0x18] &&
      t.events.length == 20 && t.drv1.byte == 0x01 && !t.drv1.rs) = true := by decide
/-- R176's worked example. -/
theorem test_writechar :
    next (exec (.dcdWritecharCh2 0x35) demo) (fun t => bytesOf .ch2 t.events == [0x3D, 0x39, 0x5D, 0x59] &&
      t.drv2.cur == 1 && t.line2.view.shows == some [0x35]) = true := by decide
/-- Vector V-D23: the cursor register wraps from 7 to 0. -/
theorem test_writechar_wraps :
    next (exec (.dcdWritecharCh2 0x35) { demo with drv2 := { demo.drv2 with cur := 7 } })
      (fun t => t.drv2.cur == 0) = true := by decide
/-- R172's worked example. -/
theorem test_clear :
    next (exec .dcdClearCh1 demo) (fun t =>
      bytesOf .ch1 t.events == [0x0C, 0x08, 0x1C, 0x18, 0x0C, 0x08, 0x2C, 0x28] && t.events.length == 33) = true := by
  decide
/-- R174's worked example. -/
theorem test_movecursor :
    next (exec (.dcdMovecursorCh1 2) demo) (fun t => bytesOf .ch1 t.events == [0x8C, 0x88, 0x2C, 0x28] &&
      t.drv1.cur == 2 && t.line1.view.vcur == 2) = true := by decide
/-- R177's worked example. -/
theorem test_displayoff :
    next (exec .dcdDisplayoffCh2 demo) (fun t => bytesOf .ch2 t.events == [0x0C, 0x08, 0x8C, 0x88] &&
      !t.line2.view.on) = true := by decide
/-- R170's worked example and R179. -/
theorem test_initialise :
    next (exec .dcdInitializeCh1 State.reset) (fun t => t.events.length == 101 && t.drv1.inited &&
      bytesOf .ch1 t.events == [0x3C, 0x38, 0x3C, 0x38, 0x3C, 0x38, 0x2C, 0x28, 0x2C, 0x28, 0x8C, 0x88, 0x0C, 0x08,
        0xCC, 0xC8, 0x0C, 0x08, 0x6C, 0x68, 0x0C, 0x08, 0x1C, 0x18, 0x0C, 0x08, 0x1C, 0x18, 0x0C, 0x08, 0x2C, 0x28])
      = true := by decide +kernel
/-- 30_encoding.md R92. -/
theorem test_dc_writechar :
    next (exec (.dcWritechar .ch1 0x01) demo) (fun t => bytesOf .ch1 t.events == [0x0D, 0x09, 0x1D, 0x19] &&
      t.line1.view.shows == some [0x01]) = true := by decide
/-- 30_encoding.md R91. -/
theorem test_bf_character :
    next (exec (.bfCharacter .ch2 3 false) demo) (fun t => bytesOf .ch2 t.events == [0x39]) = true := by decide
/-- R191's worked example: five dots. -/
theorem test_play_five_dots :
    next (exec (.lmpPlay 0xA0) demo) (fun t => t.events.length == 8 + 21 && !t.led && t.lmpState == .idle &&
      (t.events.filter fun e => e == .led true).length == 5) = true := by decide
/-- Vector V-F6: `rst` at the first `led = 1` of a play: at once the LED is off, every register has its reset value, and
the trace ends there (R267). -/
theorem test_rst_in_play :
    next (exec (.lmpPlay 0xA0) { demo with rstIn := some 0 }) (fun t => t.toBlock == .reset default && t.rst &&
      t.events.drop 8 == [.led true]) = true := by decide
/-- A reset inside a byte transfer: the bus stays started, the display has not taken the character (R267, R168). -/
theorem test_rst_in_writechar :
    next (exec (.dcdWritecharCh2 0x35) { demo with rstIn := some 9 })
      (fun t => t.line2 == demo.line2 && !t.drv2.inited &&
        t.drv2.busReq == .none && bytesOf .ch2 t.events == [0x3D, 0x39, 0x5D, 0x59]) = true := by decide
/-- A reserved slot: the fallback digit and the flag (R128). -/
theorem test_kp_reserved :
    next (exec .kpSlot13KeyD demo) (fun t => t.ret == .digit 0 && t.stNomatch && t.ksSlot == 13) = true := by decide
/-- 45_session_controller.md R224: key 7 at position 0; channel 2 shows "5.....". -/
theorem test_iterate_scenario :
    next (exec .scIterate demo7) (fun t => t.dig == 7 && t.enc == 5 && t.mw == 0xA0 && t.pos == 1 && t.cnt == 1 &&
      t.rem == 99 && t.line1.view.shows == some [0x37] &&
      t.line2.view.shows == some [0x35, 0x2E, 0x2E, 0x2E, 0x2E, 0x2E]) = true := by decide +kernel
/-- The phase walk leaves reset for SC_INIT1 (R206, R266). -/
theorem test_walk_leaves_reset : next (step State.reset) (fun t => t.scPhase == .init1) = true := by decide

/-! ## A state and operands that meet the hypotheses of each statement -/

/-- A state that a step can start something in. -/
theorem witness_open : demo.open := by unfold State.open; decide

theorem witness_ResetMeetsInvariants :
    default.wf = true ∧ Environment.initial.rst = false ∧ Environment.initial.rstIn = none ∧
      Environment.initial.line1.started = false ∧ Environment.initial.line2.started = false := by decide
theorem witness_RstOverridesEverything :
    ({ demo with rst := true } : State).cfg.wf = true ∧ ({ demo with rst := true } : State).rst = true := by decide
/-- Both branches: cut off at the first event of a play, and not reached within its 21 events. -/
theorem witness_ResetInsideOperation :
    (demo.cfg.wf = true ∧ demo.rst = false) ∧
      next (exec (.lmpPlay 0xA0) { demo with rstIn := none }) 
        (fun u => u.events.length == demo.events.length + 21) = true ∧
      next (exec (.lmpPlay 0xA0) { demo with rstIn := some 0 }) (fun t => t.rst) = true ∧
      next (exec (.lmpPlay 0xA0) { demo with rstIn := some 20 }) (fun t => t.rst) = true ∧
      next (exec (.lmpPlay 0xA0) { demo with rstIn := some 21 }) (fun t => t.rstIn == some 0) = true := by decide
theorem witness_DecodeOfEncode :
    default.wf = true ∧ (Instr.ceEncrypt 9 (2 ^ 32 - 1)).operandsFit default = true := by decide
theorem witness_EncodeOfDecode : default.wf = true ∧ decode default .mw [0xA0] = .ok .mwDigit5 := ⟨by decide, rfl⟩
theorem witness_StepRunsPresented :
    ({ demo with slot := some ⟨.op, [0x00]⟩ } : State).open ∧ decode demo.cfg .op [0x00] = .ok .ksReaddigit :=
  ⟨by unfold State.open; decide, rfl⟩
theorem witness_WithFetchWordRuns : demo.cfg = default ∧ decodeTableWord 8 0x5D = some .dcdClearCh2 := by
  exact ⟨rfl, by decide⟩
theorem witness_StepRefuses_build :
    ({ demo with cfg := { default with window := 5 } } : State).cfg.wf = false := by decide
theorem witness_StepRefuses_value :
    ({ demo with slot := some ⟨.op, [0x80]⟩ } : State).open ∧ decode demo.cfg .op [0x80] = .error .bit7Set :=
  ⟨by unfold State.open; decide, rfl⟩
theorem witness_ReadDigitCaptures :
    demo.rstIn = none ∧ ({ demo with cols := [0xF, 0xF, 0xE, 0x3] } : State).capturesListed 2 0xE [0x3] :=
  ⟨rfl, by unfold State.capturesListed; decide⟩
/-- Two listed idle samples, then the rows 2, 3, 0, 1 strobed for the held keys. -/
def held (keys : BitVec 16) : State := { demo with cols := [0xF, 0xF], keys := keys }
theorem witness_HeldKeyIsCaptured_first : demo7.rstIn = none ∧ demo7.capturesHeld 2 0xE :=
  ⟨rfl, 2, by decide, by decide, by decide, by decide, by decide, by decide⟩
theorem witness_HeldKeyIsCaptured_afterListed : (held 0x0010).capturesHeld 5 0xE :=
  ⟨3, by decide, by decide, by decide, by decide, by decide, by decide⟩
theorem noKey_demo : ¬ someKeySeen demo.cfg demo.keys := by
  rintro ⟨r, hr⟩; revert r; decide
theorem witness_ReadDigitWaits :
    demo.rstIn = none ∧ ({ demo with cols := [0xF] } : State).cols = List.replicate 1 demo.cfg.colIdle ∧
      ¬ someKeySeen demo.cfg demo.keys := ⟨rfl, by decide, noKey_demo⟩
/-- A scan that waits. -/
def waiting : State := { demo with scPhase := .read, ksPhase := .drive, ksRow := 1, kpRow := 0xE }
theorem witness_ScanGoesOnForever :
    (waiting.cfg.wf = true ∧ waiting.rst = false ∧ waiting.rstIn = none ∧ waiting.halted = false ∧
      waiting.stalled = false ∧
      waiting.scanning = true ∧ waiting.cols = []) ∧ ¬ someKeySeen waiting.cfg waiting.keys :=
  ⟨by decide, noKey_demo⟩
theorem witness_ReadDigitInRange :
    demo7.cfg.wf = true ∧ ∃ t, exec .ksReaddigit demo7 = .next t ∧ t.scanning = false ∧ t.rst = false :=
  ⟨by decide, _, rfl, by decide, by decide⟩
theorem witness_KeypadPatternRows :
    demo.cfg.wf = true ∧ demo.rstIn = none ∧ (0, Instr.kpSlot0Key0) ∈ slotInstrs ∧
      (15, Instr.kpSlot15KeyHash) ∈ slotInstrs := by decide
theorem witness_EncryptResult : demo.cfg.wf = true := by decide
theorem witness_EncryptIsBijective : default.wf = true ∧ (9 : Nibble).toNat ≤ 9 := by decide
theorem witness_MorseRows :
    (Instr.mwEmpty, 0x00#8) ∈ [(Instr.mwDigit0, 0xBF#8), (.mwDigit1, 0xBE#8), (.mwDigit2, 0xBC#8),
      (.mwDigit3, 0xB8#8), (.mwDigit4, 0xB0#8), (.mwDigit5, 0xA0#8), (.mwDigit6, 0xA1#8), (.mwDigit7, 0xA3#8),
      (.mwDigit8, 0xA7#8), (.mwDigit9, 0xAF#8), (.mwEmpty, 0x00#8)] := by decide
theorem witness_SendByteCompletes :
    (Chan.ch2, Instr.dcdSendbyteCh2 0x3D) ∈ [(Chan.ch1, Instr.dcdSendbyteCh1 0x3D), (.ch2, .dcdSendbyteCh2 0x3D)] ∧
      demo.rstIn = none ∧ (demo.drv .ch2).inited = true ∧ demo.answers .ch2 1 = true := by decide
theorem witness_SendNibbleCompletes :
    (Chan.ch1, Instr.dcdSendnibbleCh1 8 true) ∈
      [(Chan.ch1, Instr.dcdSendnibbleCh1 8 true), (.ch2, .dcdSendnibbleCh2 8 true)] ∧
      demo.rstIn = none ∧ (demo.drv .ch1).inited = true ∧ demo.answers .ch1 2 = true := by decide
theorem witness_WriteCommandCompletes :
    (Chan.ch1, Instr.dcdWritecommandCh1 1) ∈
      [(Chan.ch1, Instr.dcdWritecommandCh1 1), (.ch2, .dcdWritecommandCh2 1)] ∧
      demo.rstIn = none ∧ (demo.drv .ch1).inited = true ∧ demo.answers .ch1 4 = true := by decide
theorem witness_WriteCharCompletes :
    (Chan.ch2, Instr.dcdWritecharCh2 0x35) ∈
      [(Chan.ch1, Instr.dcdWritecharCh1 0x35), (.ch2, .dcdWritecharCh2 0x35)] ∧
      demo.rstIn = none ∧ (demo.drv .ch2).inited = true ∧ demo.answers .ch2 4 = true := by decide
theorem witness_ClearCompletes :
    (Chan.ch1, Instr.dcdClearCh1) ∈ [(Chan.ch1, Instr.dcdClearCh1), (.ch2, .dcdClearCh2)] ∧
      demo.rstIn = none ∧ (demo.drv .ch1).inited = true ∧ demo.answers .ch1 8 = true := by decide
theorem witness_MoveCursorCompletes :
    (Chan.ch1, Instr.dcdMovecursorCh1 3) ∈ [(Chan.ch1, Instr.dcdMovecursorCh1 3), (.ch2, .dcdMovecursorCh2 3)] ∧
      demo.cfg.wf = true ∧ demo.rstIn = none ∧ (demo.drv .ch1).inited = true ∧ demo.answers .ch1 4 = true := by decide
theorem witness_DisplayOffCompletes :
    (Chan.ch2, Instr.dcdDisplayoffCh2) ∈ [(Chan.ch1, Instr.dcdDisplayoffCh1), (.ch2, .dcdDisplayoffCh2)] ∧
      demo.cfg.wf = true ∧ demo.rstIn = none ∧ (demo.drv .ch2).inited = true ∧ demo.answers .ch2 4 = true := by decide
theorem witness_InitializeCompletes :
    (Chan.ch2, Instr.dcdInitializeCh2) ∈ [(Chan.ch1, Instr.dcdInitializeCh1), (.ch2, .dcdInitializeCh2)] ∧
      State.reset.cfg.wf = true ∧ State.reset.rstIn = none ∧ (State.reset.drv .ch2).inited = false ∧
      (State.reset.line .ch2).started = false ∧
      State.reset.answers .ch2 34 = true := by decide
theorem witness_DisplayCommandRows :
    demo.cfg.wf = true ∧ demo.rstIn = none ∧ (demo.drv .ch1).inited = true ∧ demo.answers .ch1 4 = true := by decide
theorem witness_FrameRows :
    (true, Instr.bfCharacter .ch1 3 true) ∈
      [(false, Instr.bfCommand .ch1 3 true), (true, .bfCharacter .ch1 3 true)] ∧
      demo.rstIn = none ∧ (demo.drv .ch1).inited = true ∧ demo.answers .ch1 1 = true := by decide
/-- A state whose channel-1 flag answers the listed waits and then as `rest` says, in a build with or without a bound. -/
def flag (bound : Option Nat) (next : List Nat) (rest : Option Nat) (s : State) : State :=
  { s with cfg := { default with busTimeout := bound }, line1 := { s.line1 with ready := ⟨next, rest⟩ } }
theorem witness_BusStallHangs_sendbyte :
    (Chan.ch1, Instr.dcdSendbyteCh1 5) ∈ [(Chan.ch1, Instr.dcdSendbyteCh1 5), (.ch2, .dcdSendbyteCh2 5)] ∧
      (flag none [] none demo).rstIn = none ∧ ((flag none [] none demo).drv .ch1).inited = true ∧
      (flag none [] none demo).cfg.busTimeout = none ∧ ((flag none [] none demo).line .ch1).ready.pop.1 = none := by
  decide
/-- What the second clause of `Obligations.BusStallHangs` asks of a state, an operation on channel 1 and a wait `k`. -/
def stalls (i : Instr) (k : Nat) (s : State) : Prop :=
  (s.cfg.wf = true ∧ s.rst = false ∧ s.rstIn = none ∧ displayChan i = some .ch1) ∧ channelFits i .ch1 s ∧
    s.cfg.busTimeout = none ∧ k < requestCount (displayEvents s.cfg i) ∧ s.answers .ch1 k = true ∧
    ((s.line .ch1).ready.after k).pop.1 = none
/-- The start wait and the last wait of DCD.INITIALIZE. -/
theorem witness_BusStallHangs_start : stalls .dcdInitializeCh1 0 (flag none [] none State.reset) := by
  unfold stalls channelFits; decide
theorem witness_BusStallHangs_last :
    stalls .dcdInitializeCh1 33 (flag none (List.replicate 33 1) none State.reset) := by
  unfold stalls channelFits; decide +kernel
/-- The last frame of a character; the one frame of a BF row. -/
theorem witness_BusStallHangs_frame : stalls (.dcdWritecharCh1 0x35) 3 (flag none [0, 2, 1] none demo) := by
  unfold stalls channelFits; decide
theorem witness_BusStallHangs_bf : stalls (.bfCommand .ch1 8 true) 0 (flag none [] none demo) := by
  unfold stalls channelFits; decide
/-- What the clauses of `Obligations.BusTimeoutHalts` ask of a state, an operation on channel 1 and a wait `k`. -/
def timesOut (i : Instr) (k limit : Nat) (s : State) : Prop :=
  (s.cfg.wf = true ∧ s.rst = false ∧ s.rstIn = none ∧ displayChan i = some .ch1) ∧ channelFits i .ch1 s ∧
    s.cfg.busTimeout = some limit ∧ k < requestCount (displayEvents s.cfg i) ∧ s.answers .ch1 k = true ∧
    ∀ w, ((s.line .ch1).ready.after k).pop.1 = some w → limit ≤ w ∧ 0 < w
/-- A flag that never sets, with the bound 0; in DCD.SENDBYTE. -/
theorem witness_BusTimeoutHalts_never : timesOut (.dcdSendbyteCh1 5) 0 0 (flag (some 0) [] none demo) :=
  ⟨by decide, by unfold channelFits; decide, by decide, by decide, by decide, fun _ h => by cases h⟩
/-- A flag that sets exactly at the bound; in DCD.SENDBYTE, and at the address wait of DCD.INITIALIZE. -/
theorem witness_BusTimeoutHalts_late : timesOut (.dcdSendbyteCh1 5) 0 7 (flag (some 7) [] (some 7) demo) :=
  ⟨by decide, by unfold channelFits; decide, by decide, by decide, by decide, fun _ h => by cases h; decide⟩
theorem witness_BusTimeoutHalts_address :
    timesOut .dcdInitializeCh1 1 7 (flag (some 7) [6] (some 7) State.reset) :=
  ⟨by decide, by unfold channelFits; decide, by decide, by decide, by decide, fun _ h => by cases h; decide⟩
theorem witness_RefusedBeforeInit :
    displayChan (.dcWritechar .ch1 0x35) = some .ch1 ∧ Instr.dcWritechar .ch1 0x35 ≠ .dcdInitializeCh1 ∧
      Instr.dcWritechar .ch1 0x35 ≠ .dcdInitializeCh2 ∧ (State.reset.drv .ch1).inited = false := by decide
theorem witness_SecondInitializeRefused :
    (demo.drv .ch1).inited = true ∧
      (({ State.reset with line1 := { Line.initial with started := true } } : State).drv .ch1).inited = false ∧
      (({ State.reset with line1 := { Line.initial with started := true } } : State).line .ch1).started = true := by
  decide
theorem witness_ChannelsAreIsolated : displayChan (.dcdClearCh1) = some .ch1 ∧ demo.rst = false := by decide
theorem witness_DisplayPositions_char :
    demo.cfg.wf = true ∧ displayChan (.dcdWritecharCh2 0x35) = some .ch2 ∧
      (∃ t, exec (.dcdWritecharCh2 0x35) demo = .next t) ∧ demo.rstIn = none ∧ demo.answers .ch2 4 = true :=
  ⟨by decide, by decide, ⟨_, rfl⟩, rfl, by decide⟩
theorem witness_DisplayPositions_other :
    demo.cfg.wf = true ∧ displayChan (.dcdMovecursorCh1 1) = some .ch1 ∧
      (∃ t, exec (.dcdMovecursorCh1 1) demo = .next t) ∧ (0x35 : Byte) ≠ demo.cfg.cmdClear :=
  ⟨by decide, by decide, ⟨_, rfl⟩, by decide⟩
theorem witness_DisplayPositions_clear :
    demo.cfg.wf = true ∧ displayChan .dcdClearCh1 = some .ch1 ∧ (∃ t, exec .dcdClearCh1 demo = .next t) ∧
      demo.rstIn = none ∧ demo.answers .ch1 4 = true := ⟨by decide, by decide, ⟨_, rfl⟩, rfl, by decide⟩
theorem witness_DisplayPositions_initialize :
    State.reset.cfg.wf = true ∧ displayChan .dcdInitializeCh2 = some .ch2 ∧
      (∃ t, exec .dcdInitializeCh2 State.reset = .next t) ∧ State.reset.rstIn = none ∧
      State.reset.answers .ch2 30 = true :=
  ⟨by decide, by decide, ⟨_, rfl⟩, rfl, by decide⟩
theorem witness_PlayCompletes :
    demo.rstIn = none ∧ (1 ≤ markCount 0x20 ∧ markCount 0x20 ≤ 5) ∧ 1 ≤ markCount 0xBF ∧ markCount 0xBF ≤ 5 := by decide
theorem witness_PlayOfEmptyWord : demo.rstIn = none ∧ markCount 0x00 = 0 := by decide
theorem witness_PlayRefusesLongWords : markCount 0xC0 = 6 ∧ markCount 0xFF = 7 := by decide
theorem witness_PlayRefusesLongWords_ignored :
    markCount 0b010_11100 = markCount 0b010_00000 ∧
      ∀ i, i < markCount 0b010_11100 → markAt 0b010_11100 i = markAt 0b010_00000 i := by decide
theorem witness_StartCompletes :
    State.reset.cfg.wf = true ∧ State.reset.rstIn = none ∧ State.reset.drv1.inited = false ∧
      State.reset.drv2.inited = false ∧
      State.reset.line1.started = false ∧ State.reset.line2.started = false ∧
      State.reset.answers .ch1 34 = true ∧ State.reset.answers .ch2 34 = true := by decide
/-- Four digits accepted: the next iteration begins with a window-boundary reset. -/
def full : State :=
  { demo with cnt := 4, window := [1, 2, 3, 4], cols := [0xF, 0xE],
              line1 := { demo.line1 with view := ⟨[(0, 0x31), (1, 0x32), (2, 0x33), (3, 0x34)], 4, true⟩ } }
theorem witness_IterateCompletes_boundary :
    full.cfg.wf = true ∧ full.rstIn = none ∧ full.drv1.inited = true ∧ full.drv2.inited = true ∧ full.cnt.toNat ≤ 4 ∧
      full.captures 1 0xE [] ∧ full.answers .ch1 (iterationWaits1 full.cnt) = true ∧
      full.answers .ch2 (iterationWaits2 full.cnt) = true :=
  ⟨by decide, rfl, rfl, rfl, by decide, .inl (by unfold State.capturesListed; decide), by decide, by decide⟩
theorem witness_IterateCompletes_held :
    demo7.cfg.wf = true ∧ demo7.rstIn = none ∧ demo7.drv1.inited = true ∧ demo7.drv2.inited = true ∧
      demo7.cnt.toNat ≤ 4 ∧ demo7.captures 2 0xE [] ∧ demo7.answers .ch1 (iterationWaits1 demo7.cnt) = true ∧
      demo7.answers .ch2 (iterationWaits2 demo7.cnt) = true :=
  ⟨by decide, rfl, rfl, rfl, by decide, .inr ⟨witness_HeldKeyIsCaptured_first.2, rfl⟩, by decide, by decide⟩
theorem witness_IterationShows :
    (full.cfg.wf = true ∧ full.cnt.toNat ≤ 4 ∧ full.line1.view.on = true ∧ full.line2.view.on = true ∧
      (full.cnt.toNat ≤ 3 → full.line1.view.shows = some (full.window.map digitChar)) ∧
      full.window.length = full.cnt.toNat ∧ full.line1.view.text.wf = true) ∧
      (∀ a, full.cnt.toNat ≤ a → full.line1.view.text.read a = none) ∧
      ∃ t, exec .scIterate full = .next t ∧ t.scPhase = .check := by
  have hc : next (exec .scIterate full) (fun t => decide (t.scPhase = .check)) = true := by decide +kernel
  obtain ⟨t, ht, hp⟩ := exists_of_next hc
  refine ⟨by decide, fun a ha => ?_, t, ht, by simpa using hp⟩
  have h : ∀ k, k < 4 → a ≠ k := fun k hk => by
    have : 4 ≤ a := ha
    omega
  simp [full, Memory.read, h 0 (by decide), h 1 (by decide), h 2 (by decide), h 3 (by decide)]
/-- The first digit of a window: nothing on the display yet. -/
theorem witness_IterationShows_first :
    (demo7.cfg.wf = true ∧ demo7.cnt.toNat ≤ 4 ∧ demo7.line1.view.on = true ∧ demo7.line2.view.on = true ∧
      (demo7.cnt.toNat ≤ 3 → demo7.line1.view.shows = some (demo7.window.map digitChar)) ∧
      demo7.window.length = demo7.cnt.toNat ∧ demo7.line1.view.text.wf = true) ∧
      (∀ a, demo7.cnt.toNat ≤ a → demo7.line1.view.text.read a = none) ∧
      ∃ t, exec .scIterate demo7 = .next t ∧ t.scPhase = .check := by
  have hc : next (exec .scIterate demo7) (fun t => decide (t.scPhase = .check)) = true := by decide +kernel
  obtain ⟨t, ht, hp⟩ := exists_of_next hc
  exact ⟨by decide, fun _ _ => rfl, t, ht, by simpa using hp⟩
theorem witness_TerminateCompletes :
    demo.cfg.wf = true ∧ demo.rstIn = none ∧ demo.drv1.inited = true ∧ demo.drv2.inited = true ∧
      demo.answers .ch1 4 = true ∧
      demo.answers .ch2 4 = true := by decide
/-- The reset state with key 7 held. -/
def reset7 : State := State.initial default { Environment.initial with keys := 0x0100 }
/-- Flags that answer at once answer any number of waits. -/
theorem reset7_answers (c : Chan) (n : Nat) : reset7.answers c n = true := by
  cases c <;> exact Ready.answers_steady _ 0 n (by decide)
theorem witness_RunCompletes :
    (reset7.cfg.wf = true ∧ reset7.rstIn = none ∧ reset7.pos < 2 ^ reset7.cfg.posWidth ∧ reset7.drv1.inited = false ∧
      reset7.drv2.inited = false ∧ reset7.line1.started = false ∧ reset7.line2.started = false) ∧
      reset7.answers .ch1 (runWaits1 reset7.rem reset7.cnt) = true ∧
      reset7.answers .ch2 (runWaits2 reset7.rem reset7.cnt) = true ∧ someKeySeen reset7.cfg reset7.keys :=
  ⟨by decide, reset7_answers _ _, reset7_answers _ _, 2, by decide⟩
theorem witness_RunCounts :
    (default.wf = true ∧ default.iterCount = 100 ∧ reset7.rstIn = none ∧ reset7.line1.started = false ∧
      reset7.line2.started = false) ∧
      reset7.answers .ch1 1130 = true ∧ reset7.answers .ch2 3430 = true ∧ someKeySeen default reset7.keys :=
  ⟨by decide, reset7_answers _ _, reset7_answers _ _, 2, by decide⟩
/-- The counts of ready-waits in the run of 100 iterations (R223). -/
theorem test_run_waits : runWaits1 100 0 = 1130 ∧ runWaits2 100 0 = 3430 := by decide +kernel
theorem witness_HaltIsFinal :
    ({ demo with scPhase := .halt } : State).cfg.wf = true ∧ ({ demo with scPhase := .halt } : State).rst = false ∧
      ({ demo with scPhase := .halt } : State).scPhase = .halt := by decide
theorem witness_step : demo.rst = false ∧ demo.slot = none ∧ ∃ t, step demo = .next t := ⟨by decide, rfl, _, rfl⟩
theorem witness_WalkPerformsIteration :
    demo7.open ∧ demo7.slot = none ∧ demo7.drv1.inited = true ∧ demo7.drv2.inited = true ∧ demo7.scPhase = .check ∧
      demo7.rem ≠ 0 ∧ ∃ t, exec .scIterate demo7 = .next t :=
  ⟨by unfold State.open; decide, rfl, rfl, rfl, rfl, by decide, _, rfl⟩
theorem witness_WalkPerformsRun :
    (default.wf = true ∧ Environment.initial.rst = false ∧ Environment.initial.line1.started = false ∧
      Environment.initial.line2.started = false) ∧
      ∃ t, exec .scRun (State.initial default .initial) = .next t :=
  ⟨by decide, (runSession (State.initial default .initial)).state, by
    rw [← Run.result_eq]
    simp only [exec, execScRun, ifSessionNew, ifUninitialised]
    rw [if_neg (by decide), if_neg (by decide), if_neg (by decide), if_neg (by decide)]⟩
theorem sound_demo : demo.Sound := by constructor <;> first | decide | (intro c; cases c <;> decide)
theorem witness_SoundIsKept : demo.Sound ∧ ∃ t, step demo = .next t := ⟨sound_demo, _, rfl⟩
theorem witness_FlagsAreSticky :
    demo.rst = false ∧ ∃ t, step demo = .next t ∧ t.rst = false := ⟨rfl, _, rfl, rfl⟩
theorem witness_InRunIsKept : demo.InRun := by constructor <;> decide
theorem witness_TrafficIsKept : demo.TrafficOk .ch1 ∧ ∃ t, step demo = .next t :=
  ⟨⟨by simp [demo, startTrace, busRequests, trafficShape, dataOnly, busAddr, State.reset, State.initial,
    Config.default],
    by decide, by decide⟩, _, rfl⟩
theorem witness_RequestsAreAnswered : demo.Answered ∧ ∃ t, step demo = .next t :=
  ⟨by constructor <;> decide, _, rfl⟩

end Sys2Proof.Tests
end

section
/-! Everything one step can do, said once: a build that breaks a constraint is refused; while `rst` is released a
step is a chain of primitive changes, begun where the slot may just have been emptied. -/

namespace Sys2Proof.Machine

/-- A build the spec excludes is refused before anything else is looked at (93_implementation_defined.md U14 to U17,
U20). -/
theorem step_of_not_wf {s : State} (hwf : s.cfg.wf = false) : step s = .refused .buildRefused := by
  simp [step, hwf]

/-- An open block performs what is presented to it. -/
theorem step_of_open_slot {s : State} {c : CallSlot} (ho : s.open) (hc : s.slot = some c) :
    step s = performSlot c s := by
  obtain ⟨hwf, hrst, hfree⟩ := ho
  simp only [State.free, hrst, Bool.and_eq_true, Bool.not_eq_true'] at hfree
  obtain ⟨⟨⟨-, hstalled⟩, hscanning⟩, hhalted⟩ := hfree
  simp [step, hwf, hrst, hstalled, hscanning, hhalted, hc]

/-- A presented value the decoder rejects is refused, with the decoder's reason. -/
theorem performSlot_of_error {s : State} {c : CallSlot} {e : DecodeError}
    (he : decode s.cfg c.format c.bytes = .error e) : performSlot c s = .refused (.badEncoding e) := by
  simp [performSlot, fetchInstr, he]

/-- What follows a returned operation extends its chain; an operation that did not return ends the step. -/
theorem performAfter_prims {s t : State} {r : Host.Outcome State Fault Refusal} {f : State → Run}
    (h : performAfter r f = .next t) (hr : ∀ u, r = .next u → Prims s u) (hf : ∀ u, Prims u (f u).state) :
    Prims s t := by
  cases r with
  | next u =>
    simp only [performAfter] at h
    split at h
    · exact (hr u rfl).trans (result_prims (hf u) h)
    · cases h; exact hr _ rfl
  | fault e => cases h
  | refused e => cases h

theorem whenReturned_prims {s t : State} {r : Host.Outcome State Fault Refusal} {f : State → State}
    (h : whenReturned r f = .next t) (hr : ∀ u, r = .next u → Prims s u) (hf : ∀ u, Prims u (f u)) : Prims s t :=
  performAfter_prims h hr hf

theorem walkCipher_prims {s t : State} (h : walkCipher s = .next t) : Prims s t :=
  whenReturned_prims h (exec_prims _ s) fun _ => .of_quiet (.of_eq rfl)

theorem walkEncode_prims {s t : State} {r : Host.Outcome State Fault Refusal} (h : walkEncode r = .next t)
    (hr : ∀ u, r = .next u → Prims s u) : Prims s t := by
  cases r with
  | next u => exact (hr u rfl).trans (whenReturned_prims h (exec_prims _ u) fun _ => .of_quiet (.of_eq rfl))
  | fault e => cases h
  | refused e => cases h

theorem afterMark_prims (s : State) : Prims s (afterMark s) := by
  unfold afterMark
  split
  · exact .of_quiet (.of_eq rfl)
  · exact setSc_prims .play s

theorem walkMark_prims {s t : State} (h : walkMark s = .next t) : Prims s t := by
  unfold walkMark at h
  split at h
  · exact whenReturned_prims h (exec_prims _ s) afterMark_prims
  · cases h; exact setSc_prims .play s

theorem checkPhase_prims (s : State) : Prims s (checkPhase s) := by
  unfold checkPhase
  split
  · exact setSc_prims .off1 s
  · split
    · exact setSc_prims .wclr1 s
    · exact setSc_prims .read s

/-- Every phase of the walk is a chain of primitive changes. -/
theorem walk_prims {s t : State} (h : walk s = .next t) : Prims s t := by
  unfold walk at h
  generalize s.scPhase = phase at h
  cases phase with
  | reset => cases h; exact setSc_prims .init1 s
  | init1 => exact whenReturned_prims h (exec_prims _ s) (setSc_prims .init2)
  | init2 => exact whenReturned_prims h (exec_prims _ s) (setSc_prims .check)
  | check => cases h; exact checkPhase_prims s
  | wclr1 => exact whenReturned_prims h (exec_prims _ s) (setSc_prims .wclr2)
  | wclr2 => exact whenReturned_prims h (exec_prims _ s) (setSc_prims .wsettle)
  | wsettle => exact whenReturned_prims h (fun _ => result_prims (windowSettle_prims s)) (setSc_prims .read)
  | read => exact whenReturned_prims h (exec_prims _ s) fun _ => .of_quiet (.of_eq rfl)
  | cipher => exact walkEncode_prims h fun _ => walkCipher_prims
  | ch1pos => exact whenReturned_prims h (exec_prims _ s) (setSc_prims .ch1wr)
  | ch1wr => exact whenReturned_prims h (exec_prims _ s) (setSc_prims .ch2clr)
  | ch2clr => exact whenReturned_prims h (exec_prims _ s) (setSc_prims .ch2dig)
  | ch2dig => exact whenReturned_prims h (exec_prims _ s) fun _ => .of_quiet (.of_eq rfl)
  | ch2mrk => exact walkMark_prims h
  | play => exact whenReturned_prims h (exec_prims _ s) (setSc_prims .adv)
  | adv => cases h; exact .of_quiet (.of_eq rfl)
  | off1 => exact whenReturned_prims h (exec_prims _ s) (setSc_prims .off2)
  | off2 => exact performAfter_prims h (exec_prims _ s) fun u => .one (.done u)
  | halt => cases h; exact .refl s

/-- A scan that goes on is a chain of primitive changes, the controller's taking of the digit included. -/
theorem scanOn_prims {s t : State} (h : scanOn s = .next t) : Prims s t := by
  have hscan : Prims s (resumeScan s).state := resumeScan_prims s
  unfold scanOn at h
  split at h
  · next u hu =>
    rw [hu] at hscan
    cases h
    split
    · exact hscan.snoc (.of_eq rfl)
    · exact hscan
  · next u hu =>
    rw [hu] at hscan
    cases h
    exact hscan

theorem performSlot_prims {s t : State} {c : CallSlot} (h : performSlot c s = .next t) :
    Prims { s with slot := none } t := by
  unfold performSlot at h
  split at h
  · exact exec_prims _ _ t h
  · cases h

/-- Everything a step can do while `rst` is released: nothing, in `SC_HALT` or in a ready-wait; the waiting scan goes on;
an open block performs what is presented, or else goes on with its walk. -/
theorem step_cases {s t : State} (hrst : s.rst = false) (h : step s = .next t) :
    ((s.halted = true ∨ s.stalled = true) ∧ t = s) ∨
    (s.halted = false ∧ s.stalled = false ∧ s.scanning = true ∧ scanOn s = .next t) ∨
    (s.open ∧ ∃ c, s.slot = some c ∧ performSlot c s = .next t) ∨
    (s.open ∧ s.slot = none ∧ walk s = .next t) := by
  cases hwf : s.cfg.wf with
  | false => rw [step_of_not_wf hwf] at h; cases h
  | true =>
    simp only [step, hwf, hrst, Bool.not_true, Bool.false_eq_true, if_false] at h
    cases hhalted : s.halted with
    | true =>
      rw [hhalted] at h; cases h
      exact .inl ⟨.inl rfl, rfl⟩
    | false =>
      cases hstalled : s.stalled with
      | true =>
        rw [hhalted, hstalled] at h; cases h
        exact .inl ⟨.inr rfl, rfl⟩
      | false =>
        cases hscanning : s.scanning with
        | true =>
          rw [hhalted, hstalled, hscanning] at h
          exact .inr (.inl ⟨rfl, rfl, rfl, h⟩)
        | false =>
          rw [hhalted, hstalled, hscanning] at h
          have hopen : s.open := ⟨hwf, hrst, by simp [State.free, hrst, hhalted, hstalled, hscanning]⟩
          cases hslot : s.slot with
          | some c => rw [hslot] at h; exact .inr (.inr (.inl ⟨hopen, c, rfl, h⟩))
          | none => rw [hslot] at h; exact .inr (.inr (.inr ⟨hopen, rfl, h⟩))

/-- While `rst` is released a step is a chain of primitive changes, from the state itself or, where a presented
operation is performed, from the state with its slot emptied. -/
theorem step_prims {s t : State} (hrst : s.rst = false) (h : step s = .next t) :
    Prims s t ∨ Prims { s with slot := none } t := by
  rcases step_cases hrst h with ⟨-, rfl⟩ | ⟨-, -, -, hscan⟩ | ⟨-, c, -, hslot⟩ | ⟨-, -, hwalk⟩
  · exact .inl (.refl _)
  · exact .inl (scanOn_prims hscan)
  · exact .inr (performSlot_prims hslot)
  · exact .inl (walk_prims hwalk)

/-- The induction over a step: what is reflexive, composes, holds across every primitive change and across the emptying
of the slot holds across every step that begins with `rst` released. -/
theorem step_lift {R : State → State → Prop} (refl : ∀ s, R s s) (trans : ∀ s t u, R s t → R t u → R s u)
    (prim : ∀ s t, Prim s t → R s t) (slot : ∀ s : State, R s { s with slot := none }) {s t : State}
    (hrst : s.rst = false) (h : step s = .next t) : R s t := by
  rcases step_prims hrst h with hp | hp
  · exact hp.lift refl trans prim
  · exact trans _ _ _ (slot s) (hp.lift refl trans prim)

/-- Settles O11: a build that breaks a constraint is refused first, and an open block's step is the presented value's. -/
theorem stepRefuses : Obligations.StepRefuses :=
  ⟨fun _ hwf => step_of_not_wf hwf, fun _ _ _ ho hc he => (step_of_open_slot ho hc).trans (performSlot_of_error he)⟩

end Sys2Proof.Machine
end

section
/-! The trace and the model time across a step (00_scope.md R17, 20_memory.md R66): `Grows` composes and holds
across every primitive change, so it holds across every step. -/

namespace Sys2Proof.Machine

theorem sleepTime_append (es fs : List Event) : sleepTime (es ++ fs) = sleepTime es + sleepTime fs := by
  induction es with
  | nil => simp [sleepTime]
  | cons e es ih => cases e <;> simp [sleepTime, ih, Nat.add_assoc]

/-- Among the events no ready-wait ends. -/
def NoWaitEnds (es : List Event) : Prop := ∀ c, Event.busReady c ∉ es ∧ Event.busTimeout c ∉ es

theorem noWaitEnds_append {es fs : List Event} : NoWaitEnds (es ++ fs) ↔ NoWaitEnds es ∧ NoWaitEnds fs := by
  simp only [NoWaitEnds, List.mem_append, not_or]
  exact ⟨fun h => ⟨fun c => ⟨(h c).1.1, (h c).2.1⟩, fun c => ⟨(h c).1.2, (h c).2.2⟩⟩,
    fun ⟨he, hf⟩ c => ⟨⟨(he c).1, (hf c).1⟩, ⟨(he c).2, (hf c).2⟩⟩⟩

/-- Events may take the time `d`: at least that of their sleeps, and exactly that where no ready-wait ends among
them. -/
def Takes (es : List Event) (d : Nat) : Prop := sleepTime es ≤ d ∧ (NoWaitEnds es → d = sleepTime es)

theorem Takes.exact (es : List Event) : Takes es (sleepTime es) := ⟨Nat.le_refl _, fun _ => rfl⟩

theorem Takes.append {es fs : List Event} {d k : Nat} (he : Takes es d) (hf : Takes fs k) :
    Takes (es ++ fs) (d + k) := by
  obtain ⟨hle, heq⟩ := he
  obtain ⟨hle', heq'⟩ := hf
  rw [Takes, sleepTime_append, noWaitEnds_append]
  exact ⟨Nat.add_le_add hle hle', fun ⟨hn, hn'⟩ => by rw [heq hn, heq' hn']⟩

/-- The end of a ready-wait may take any time. -/
theorem Takes.busReady (c : Chan) (d : Nat) : Takes [.busReady c] d :=
  ⟨Nat.zero_le d, fun h => absurd List.mem_cons_self (h c).1⟩

theorem Takes.busTimeout (c : Chan) (d : Nat) : Takes [.busTimeout c] d :=
  ⟨Nat.zero_le d, fun h => absurd List.mem_cons_self (h c).2⟩

/-- From `s` to `t` events have only been appended, `rst` has not been released, and unless `rst` stands at the end the
time that has passed is one those events may take. -/
def Grows (s t : State) : Prop :=
  ∃ evs, t.events = s.events ++ evs ∧
    (t.rst = false → s.rst = false ∧ ∃ d, t.time = s.time + d ∧ Takes evs d)

/-- A change that leaves the trace, the time and `rst` alone. -/
theorem Grows.of_same {s t : State} (hevents : t.events = s.events) (htime : t.time = s.time) (hrst : t.rst = s.rst) :
    Grows s t :=
  ⟨[], by simp [hevents], fun h => ⟨hrst ▸ h, 0, htime, .exact []⟩⟩

theorem Grows.refl (s : State) : Grows s s := .of_same rfl rfl rfl

theorem Grows.trans {s t u : State} (h : Grows s t) (k : Grows t u) : Grows s u := by
  obtain ⟨es, hes, hst⟩ := h
  obtain ⟨fs, hfs, htu⟩ := k
  refine ⟨es ++ fs, by rw [hfs, hes, List.append_assoc], fun hu => ?_⟩
  obtain ⟨ht, k, htime', hk⟩ := htu hu
  obtain ⟨hs, d, htime, hd⟩ := hst ht
  exact ⟨hs, d + k, by rw [htime', htime, Nat.add_assoc], hd.append hk⟩

/-- One event emitted in `u`, then `f` where `rst` does not cut in: it is enough that the event may take the time that
has passed after `f`. -/
theorem Grows.of_event {s u : State} (f : State → Run) (e : Event) (d : Nat) (he : Takes [e] d)
    (hevents : u.events = s.events ++ [e])
    (hf : ∀ n, (f { u with rstIn := n }).state.events = u.events ∧
      (f { u with rstIn := n }).state.rst = s.rst ∧ (f { u with rstIn := n }).state.time = s.time + d) :
    Grows s ((resetPoint u).andThen f).state := by
  have goesOn : ∀ n, Grows s (f { u with rstIn := n }).state := fun n => by
    obtain ⟨hev, hrst, htime⟩ := hf n
    exact ⟨[e], hev.trans hevents, fun h => ⟨hrst ▸ h, d, htime, he⟩⟩
  rcases resetPoint_cases u with ⟨-, h⟩ | ⟨n, -, h⟩ | ⟨-, h⟩ <;> rw [h]
  · exact goesOn u.rstIn
  · exact goesOn (some n)
  · exact ⟨[e], hevents, fun hr => nomatch hr⟩

theorem Run.andThen_done_self (r : Run) : r.andThen .done = r := by cases r <;> rfl

/-- One event emitted in `u` and nothing after it. -/
theorem Grows.of_lastEvent {s u : State} (e : Event) (d : Nat) (he : Takes [e] d)
    (hevents : u.events = s.events ++ [e]) (hrst : u.rst = s.rst) (htime : u.time = s.time + d) :
    Grows s (resetPoint u).state := by
  rw [← Run.andThen_done_self (resetPoint u)]
  exact .of_event .done e d he hevents fun _ => ⟨rfl, hrst, htime⟩

/-- Each primitive change appends at most one event, and takes the time of that event. -/
theorem Grows.of_prim {s t : State} (p : Prim s t) : Grows s t := by
  cases p with
  | quiet h => exact .of_same h.events h.time h.rst
  | row v => exact .of_lastEvent (.row v) 0 (.exact _) rfl rfl rfl
  | sample v => exact .of_lastEvent (.sample v) 0 (.exact _) rfl rfl rfl
  | led b => exact .of_lastEvent (.led b) 0 (.exact _) rfl rfl rfl
  | sleep n => exact .of_event (fun u => .done (u.endSleep n)) (.delay n) n (.exact _) rfl fun _ => ⟨rfl, rfl, rfl⟩
  | start c =>
    exact .of_lastEvent (.busStart c) 0 (.exact _) (by simp [State.requestStart]) (by simp [State.requestStart])
      (by simp [State.requestStart])
  | addr c a =>
    exact .of_lastEvent (.busAddr c a) 0 (.exact _) (by simp [State.requestAddr]) (by simp [State.requestAddr])
      (by simp [State.requestAddr])
  | data c b =>
    exact .of_lastEvent (.busData c b) 0 (.exact _) (by simp [State.requestData]) (by simp [State.requestData])
      (by simp [State.requestData])
  | ready c w r v =>
    exact .of_lastEvent (.busReady c) w (.busReady c w) (by simp [State.readySeen]) (by simp [State.readySeen])
      (by simp [State.readySeen])
  | givenUp c n _ =>
    exact .of_event (fun u => .stop u.halt) (.busTimeout c) n (.busTimeout c n) rfl fun _ => ⟨rfl, rfl, rfl⟩
  | noMatch p => exact .of_lastEvent (.noMatch p) 0 (.exact _) rfl rfl rfl
  | done => exact .of_event (fun u => .done u.halt) .done 0 (.exact _) rfl fun _ => ⟨rfl, rfl, rfl⟩

/-- Every step that begins with `rst` released only appends events and takes the time they may take. -/
theorem step_grows {s t : State} (hrst : s.rst = false) (h : step s = .next t) : Grows s t :=
  step_lift .refl (fun _ _ _ => .trans) (fun _ _ => .of_prim) (fun _ => .of_same rfl rfl rfl) hrst h

/-- Settles O60: the appended events and the time they take are those of `step_grows`. -/
theorem traceGrows : Obligations.TraceGrows := by
  intro s t hrst h
  obtain ⟨evs, hevents, htime⟩ := step_grows hrst h
  refine ⟨evs, hevents, fun ht => ?_⟩
  obtain ⟨-, d, hd, hle, hexact⟩ := htime ht
  exact ⟨by omega, fun hnone => by rw [hd, hexact hnone]⟩

end Sys2Proof.Machine
end

section
/-! The values after reset (10_state.md R45), and the status flags across a step (10_state.md R31): `FlagsKept` composes
and holds across every primitive change, so it holds across every step. -/

namespace Sys2Proof.Machine

/-- From the reset state the first step takes the walk out of `SC_RESET` (70_reset_and_hazards.md R266). -/
theorem step_reset : step State.reset = .next (setSc .init1 State.reset) := rfl

/-- Settles O1: each register is read off the reset state, and the first step is `step_reset`. -/
theorem resetValues : Obligations.ResetValues := by
  have hdrv : ∀ c, State.reset.drv c = .reset := fun c => by cases c <;> rfl
  refine ⟨rfl, rfl, rfl, rfl, rfl, rfl, rfl, rfl, rfl, fun c => ?_, rfl, rfl, rfl, rfl, rfl, rfl, rfl, rfl, rfl, rfl,
    rfl, _, step_reset, rfl⟩
  rw [hdrv c]
  exact ⟨rfl, rfl, rfl, rfl, rfl, rfl, rfl, rfl⟩

/-- Unless `rst` stands at the end, it did not stand at the start, and no flag set at the start has been cleared. -/
def FlagsKept (s t : State) : Prop :=
  t.rst = false → s.rst = false ∧ (s.stNomatch = true → t.stNomatch = true) ∧
    (s.stBusTimeout = true → t.stBusTimeout = true) ∧ (s.stDone = true → t.stDone = true)

theorem FlagsKept.of_same {s t : State} (hrst : t.rst = s.rst) (hn : t.stNomatch = s.stNomatch)
    (hb : t.stBusTimeout = s.stBusTimeout) (hd : t.stDone = s.stDone) : FlagsKept s t :=
  fun h => ⟨hrst ▸ h, fun k => hn.trans k, fun k => hb.trans k, fun k => hd.trans k⟩

theorem FlagsKept.refl (s : State) : FlagsKept s s := .of_same rfl rfl rfl rfl

theorem FlagsKept.trans {s t u : State} (h : FlagsKept s t) (k : FlagsKept t u) : FlagsKept s u := by
  intro hu
  obtain ⟨ht, kn, kb, kd⟩ := k hu
  obtain ⟨hs, hn, hb, hd⟩ := h ht
  exact ⟨hs, fun x => kn (hn x), fun x => kb (hb x), fun x => kd (hd x)⟩

/-- After an event the flags are those of `u`, or `rst` stands. -/
theorem FlagsKept.of_resetPoint {s u : State} (f : State → Run) (h : ∀ n, FlagsKept s (f { u with rstIn := n }).state) :
    FlagsKept s ((resetPoint u).andThen f).state := by
  rcases resetPoint_cases u with ⟨-, hu⟩ | ⟨n, -, hu⟩ | ⟨-, hu⟩ <;> rw [hu]
  · exact h u.rstIn
  · exact h (some n)
  · exact fun hrst => nomatch hrst

theorem FlagsKept.of_lastEvent {s u : State} (h : FlagsKept s u) : FlagsKept s (resetPoint u).state := by
  rw [← Run.andThen_done_self (resetPoint u)]
  exact .of_resetPoint .done fun _ => h

/-- A primitive change sets at most one flag and clears none. -/
theorem FlagsKept.of_prim {s t : State} (p : Prim s t) : FlagsKept s t := by
  cases p with
  | quiet h => exact .of_same h.rst h.stNomatch h.stBusTimeout h.stDone
  | row v => exact .of_lastEvent (.of_same rfl rfl rfl rfl)
  | sample v => exact .of_lastEvent (.of_same rfl rfl rfl rfl)
  | led b => exact .of_lastEvent (.of_same rfl rfl rfl rfl)
  | sleep n => exact .of_resetPoint (fun u => .done (u.endSleep n)) fun _ => .of_same rfl rfl rfl rfl
  | start c => cases c <;> exact .of_lastEvent (.of_same rfl rfl rfl rfl)
  | addr c a => cases c <;> exact .of_lastEvent (.of_same rfl rfl rfl rfl)
  | data c b => cases c <;> exact .of_lastEvent (.of_same rfl rfl rfl rfl)
  | ready c w r v => cases c <;> exact .of_lastEvent (.of_same rfl rfl rfl rfl)
  | givenUp c n _ => exact .of_resetPoint (fun u => .stop u.halt) fun _ h => ⟨h, id, fun _ => rfl, id⟩
  | noMatch p => exact .of_lastEvent fun h => ⟨h, fun _ => rfl, id, id⟩
  | done => exact .of_resetPoint (fun u => .done u.halt) fun _ h => ⟨h, id, id, fun _ => rfl⟩

/-- Settles O56: the flags are kept across every chain of primitive changes, and so across every step. -/
theorem flagsAreSticky : Obligations.FlagsAreSticky := by
  intro s t hrst h ht
  have hkept : FlagsKept s t :=
    step_lift .refl (fun _ _ _ => .trans) (fun _ _ => .of_prim) (fun _ => .of_same rfl rfl rfl rfl) hrst h
  exact (hkept ht).2

end Sys2Proof.Machine
end

section
/-! What an operation of a component leaves unchanged, said once for the display channels, the scanner and the player
(10_state.md R20 to R39), whether it returns, rests in a wait or is cut off by `rst`. `Keeps` forgets what the component
works on, so it composes by itself; an operation is then a chain of statements that each keep the rest. -/

namespace Sys2Proof.Machine

open Sys2Proof.Config

/-! ### How an operation ends -/

/-- An operation that returns does so in a state with `P`, one that stops does so in a state with `Q`. -/
def Run.Ends (r : Run) (P Q : State → Prop) : Prop :=
  match r with
  | .done t => P t
  | .stop t => Q t

theorem Run.Ends.andThen {r : Run} {f : State → Run} {P P' Q : State → Prop} (h : r.Ends P Q)
    (hf : ∀ t, P t → (f t).Ends P' Q) : (r.andThen f).Ends P' Q := by
  cases r with
  | done t => exact hf t h
  | stop t => exact h

theorem Run.Ends.mono {r : Run} {P P' Q Q' : State → Prop} (h : r.Ends P Q) (hp : ∀ t, P t → P' t)
    (hq : ∀ t, Q t → Q' t) : r.Ends P' Q' := by
  cases r with
  | done t => exact hp t h
  | stop t => exact hq t h

/-- The state a run answers with has one of the two. -/
theorem Run.Ends.result {r : Run} {P Q : State → Prop} {t : State} (h : r.Ends P Q) (ht : r.result = .next t) :
    P t ∨ Q t := by
  cases r with
  | done u => cases ht; exact .inl h
  | stop u => cases ht; exact .inr h

/-- After an event the block goes on with `rst` as certain to come as before, or is reset. -/
theorem resetPoint_ends {P Q : State → Prop} (u : State)
    (hp : ∀ k, k.isSome = u.rstIn.isSome → P { u with rstIn := k }) (hq : u.rstIn.isSome = true → Q u.assertReset) :
    (resetPoint u).Ends P Q := by
  rcases resetPoint_cases u with ⟨-, h⟩ | ⟨n, hn, h⟩ | ⟨hn, h⟩ <;> rw [h]
  · exact hp u.rstIn rfl
  · exact hp (some n) (by rw [hn]; rfl)
  · exact hq (by rw [hn]; rfl)

/-! ### What the operations of a component keep -/

/-- A component whose operations the controller performs. -/
inductive Component
  | channel (c : Chan)
  | scanner
  | player

/-- `s` with the registers and the environment of a component forgotten, and with them the trace, the time, the delay
port and the coming of `rst`. -/
def State.without (x : Component) (s : State) : State :=
  { s with
    drv1 := match x with | .channel .ch1 => .reset | _ => s.drv1
    drv2 := match x with | .channel .ch2 => .reset | _ => s.drv2
    line1 := match x with | .channel .ch1 => .initial | _ => s.line1
    line2 := match x with | .channel .ch2 => .initial | _ => s.line2
    ksRow := match x with | .scanner => 0 | _ => s.ksRow
    ksPat := match x with | .scanner => 0 | _ => s.ksPat
    ksSlot := match x with | .scanner => 0 | _ => s.ksSlot
    ksPhase := match x with | .scanner => .idle | _ => s.ksPhase
    kpRow := match x with | .scanner => 0 | _ => s.kpRow
    cols := match x with | .scanner => [] | _ => s.cols
    ret := match x with | .scanner => .none | _ => s.ret
    stNomatch := match x with | .scanner => false | _ => s.stNomatch
    lmpState := match x with | .player => .idle | _ => s.lmpState
    lmpIdx := match x with | .player => 0 | _ => s.lmpIdx
    led := match x with | .player => false | _ => s.led
    dlyReq := false, dlyLen := 0, events := [], time := 0, rstIn := none }

/-- The positions of both displays are in canonical form. -/
def State.Canonical (s : State) : Prop := ∀ c, (s.line c).view.text.wf = true

/-- From `s` to `t` only the component has worked: no sleep is left unfinished, `rst` is as certain to come as before,
and the display positions are as canonical as before. -/
structure Keeps (x : Component) (s t : State) : Prop where
  rest : t.without x = s.without x
  awake : s.dlyReq = false → t.dlyReq = false
  rstIn : t.rstIn.isSome = s.rstIn.isSome
  views : s.Canonical → t.Canonical

theorem Keeps.refl (x : Component) (s : State) : Keeps x s s := ⟨rfl, id, rfl, id⟩

theorem Keeps.trans {x : Component} {s t u : State} (h : Keeps x s t) (k : Keeps x t u) : Keeps x s u :=
  ⟨k.rest.trans h.rest, fun a => k.awake (h.awake a), k.rstIn.trans h.rstIn, fun v => k.views (h.views v)⟩

/-- What does not depend on what is forgotten is the same. -/
theorem Keeps.read {x : Component} {s t : State} {α : Type} (g : State → α) (h : Keeps x s t)
    (hg : (fun u : State => g (u.without x)) = g) : g t = g s := by
  rw [← congrFun hg t, h.rest, congrFun hg s]

/-- The other channel is as it was. -/
theorem Keeps.otherDrv {c c' : Chan} {s t : State} (h : Keeps (.channel c) s t) (hc : c' ≠ c) :
    t.drv c' = s.drv c' := by
  cases c <;> cases c'
  · exact absurd rfl hc
  · exact h.read (·.drv2) rfl
  · exact h.read (·.drv1) rfl
  · exact absurd rfl hc

theorem Keeps.otherLine {c c' : Chan} {s t : State} (h : Keeps (.channel c) s t) (hc : c' ≠ c) :
    t.line c' = s.line c' := by
  cases c <;> cases c'
  · exact absurd rfl hc
  · exact h.read (·.line2) rfl
  · exact h.read (·.line1) rfl
  · exact absurd rfl hc

/-- The scanner and the player leave the drivers of both channels. -/
theorem Keeps.drv {x : Component} {s t : State} (h : Keeps x s t) (hx : ∀ c, x ≠ .channel c) (c : Chan) :
    t.drv c = s.drv c := by
  cases x with
  | channel c' => exact absurd rfl (hx c')
  | scanner => cases c; exacts [h.read (·.drv1) rfl, h.read (·.drv2) rfl]
  | player => cases c; exacts [h.read (·.drv1) rfl, h.read (·.drv2) rfl]

theorem Keeps.modDrv (c : Chan) (f : Driver → Driver) (s : State) : Keeps (.channel c) s (s.modDrv c f) := by
  refine ⟨?_, ?_, ?_, fun h c' => ?_⟩
  · cases c <;> rfl
  · simp
  · simp
  · simpa using h c'

theorem Keeps.modLine (c : Chan) (f : Line → Line) (s : State)
    (hf : ∀ l : Line, l.view.text.wf = true → (f l).view.text.wf = true) : Keeps (.channel c) s (s.modLine c f) := by
  refine ⟨?_, ?_, ?_, fun h c' => ?_⟩
  · cases c <;> rfl
  · simp
  · simp
  · by_cases hc : c' = c
    · subst hc
      rw [modLine_line_own]
      exact hf _ (h c')
    · rw [modLine_line_other _ _ _ hc]
      exact h c'

/-- The trace and the coming of `rst` belong to no component. -/
theorem Keeps.emit (x : Component) (s : State) (e : Event) : Keeps x s (s.emit e) := ⟨rfl, id, rfl, id⟩

theorem Keeps.rstIn_eq (x : Component) (s : State) {k : Option Nat} (hk : k.isSome = s.rstIn.isSome) :
    Keeps x s { s with rstIn := k } := ⟨rfl, id, hk, id⟩

/-! ### Cut off by `rst` -/

/-- `rst` was to come, and did: the block is that of the build after reset, the environment keeps what it has
(70_reset_and_hazards.md R267). -/
structure WasReset (s t : State) : Prop where
  cause : s.rstIn.isSome = true
  block : t.toBlock = .reset s.cfg
  cfg : t.cfg = s.cfg
  rst : t.rst = true
  ret : t.ret = .none
  views : s.Canonical → t.Canonical

theorem wasReset_assertReset {s : State} (h : s.rstIn.isSome = true) : WasReset s s.assertReset :=
  ⟨h, rfl, rfl, rfl, rfl, fun v c => by simpa using v c⟩

theorem WasReset.of_keeps {x : Component} {s t u : State} (k : Keeps x s t) (h : WasReset t u) : WasReset s u := by
  have hcfg : t.cfg = s.cfg := k.read State.cfg rfl
  exact ⟨k.rstIn ▸ h.cause, hcfg ▸ h.block, h.cfg.trans hcfg, h.rst, h.ret, fun v => h.views (k.views v)⟩

/-- An event of a component: it goes on, or is cut off. -/
theorem Keeps.resetPoint {x : Component} {s u : State} (h : Keeps x s u) {P Q : State → Prop}
    (hp : ∀ k, Keeps x s { u with rstIn := k } → P { u with rstIn := k }) (hq : ∀ t, WasReset s t → Q t) :
    (resetPoint u).Ends P Q :=
  resetPoint_ends u (fun _ hk => hp _ (h.trans (.rstIn_eq x u hk))) fun hr =>
    hq _ ((wasReset_assertReset hr).of_keeps h)

/-- A sleep is part of any component's work. -/
theorem sleep_ends (x : Component) (s : State) (n : Nat) {P Q : State → Prop}
    (hp : ∀ k, Keeps x s { (s.beginSleep n).endSleep n with rstIn := k } →
      P { (s.beginSleep n).endSleep n with rstIn := k }) (hq : ∀ t, WasReset s t → Q t) : (s.sleep n).Ends P Q := by
  have hbegin : ∀ k, k.isSome = s.rstIn.isSome → Keeps x s { (s.beginSleep n).endSleep n with rstIn := k } :=
    fun k hk => ⟨rfl, fun _ => rfl, hk, id⟩
  refine Run.Ends.andThen (P := fun t => P (t.endSleep n)) (resetPoint_ends (s.beginSleep n) ?_ ?_) fun t ht => ht
  · exact fun k hk => hp k (hbegin k hk)
  · exact fun hr => hq _ ⟨hr, rfl, rfl, rfl, rfl, fun v c => by simpa using v c⟩

/-! ### A display channel -/

/-- From `s` to `t` only channel `c` has worked, and it is initialised if it was. -/
structure ChannelWorked (c : Chan) (s t : State) : Prop where
  keeps : Keeps (.channel c) s t
  inited : (s.drv c).inited = true → (t.drv c).inited = true

theorem ChannelWorked.trans {c : Chan} {s t u : State} (h : ChannelWorked c s t) (k : ChannelWorked c t u) :
    ChannelWorked c s u := ⟨h.keeps.trans k.keeps, fun i => k.inited (h.inited i)⟩

/-- From `s` to `t` the channel has worked; no request is left on its bus, and its driver is in phase `q`. -/
structure ChannelDone (c : Chan) (q : DPhase) (s t : State) : Prop extends ChannelWorked c s t where
  idleBus : (s.drv c).busReq = .none → (t.drv c).busReq = .none
  phase : (t.drv c).phase = q

/-- From `s` to `t` the channel has worked, and a request stands on its bus. -/
structure ChannelBusy (c : Chan) (s t : State) : Prop extends ChannelWorked c s t where
  busy : (t.drv c).busReq ≠ .none

/-- How an operation on a channel can fail to return: `rst` came; the ready flag never sets
(43_display_channel_driver.md R178); the wait was given up (60_exceptions.md R238). -/
inductive ChannelStopped (c : Chan) (s : State) : State → Prop
  | reset {t : State} (h : WasReset s t) : ChannelStopped c s t
  | stalled {t : State} (h : ChannelBusy c s t) : ChannelStopped c s t
  | gaveUp {t : State} (h : ChannelBusy c s t) : ChannelStopped c s { t with scPhase := .halt, stBusTimeout := true }

theorem ChannelBusy.after {c : Chan} {s t u : State} (h : ChannelWorked c s t) (k : ChannelBusy c t u) :
    ChannelBusy c s u := ⟨h.trans k.toChannelWorked, k.busy⟩

theorem ChannelStopped.after {c : Chan} {s t u : State} (h : ChannelWorked c s t) (k : ChannelStopped c t u) :
    ChannelStopped c s u := by
  cases k with
  | reset k => exact .reset (k.of_keeps h.keeps)
  | stalled k => exact .stalled (k.after h)
  | gaveUp k => exact .gaveUp (k.after h)

theorem ChannelDone.after {c : Chan} {p q : DPhase} {s t u : State} (h : ChannelDone c p s t)
    (k : ChannelDone c q t u) : ChannelDone c q s u :=
  ⟨h.toChannelWorked.trans k.toChannelWorked, fun b => k.idleBus (h.idleBus b), k.phase⟩

/-- An operation on channel `c` that leaves the driver in phase `q` when it returns. -/
def WorksOn (c : Chan) (q : DPhase) (s : State) (r : Run) : Prop := r.Ends (ChannelDone c q s) (ChannelStopped c s)

theorem WorksOn.after {c : Chan} {p q : DPhase} {s t : State} {r : Run} (h : ChannelDone c p s t)
    (k : WorksOn c q t r) : WorksOn c q s r :=
  k.mono (fun _ => h.after) fun _ => .after h.toChannelWorked

/-- What follows sets the driver's phase anew. -/
theorem WorksOn.andThen {c : Chan} {p q : DPhase} {s : State} {r : Run} {f : State → Run} (h : WorksOn c p s r)
    (hf : ∀ t, WorksOn c q t (f t)) : WorksOn c q s (r.andThen f) :=
  Run.Ends.andThen h fun t ht => WorksOn.after ht (hf t)

/-- What follows leaves the driver's phase. -/
theorem WorksOn.andKeep {c : Chan} {p : DPhase} {s : State} {r : Run} {f : State → Run} (h : WorksOn c p s r)
    (hf : ∀ t, WorksOn c (t.drv c).phase t (f t)) : WorksOn c p s (r.andThen f) :=
  Run.Ends.andThen h fun t ht => WorksOn.after ht (ht.phase ▸ hf t)

/-- Driver registers are written, the request and `d_init` not among them. -/
theorem modDrv_done (c : Chan) (f : Driver → Driver) (s : State) (hi : ∀ d, (f d).inited = d.inited)
    (hb : ∀ d, (f d).busReq = d.busReq) : ChannelDone c (f (s.drv c)).phase s (s.modDrv c f) :=
  { keeps := .modDrv c f s
    inited := by simp [hi]
    idleBus := by simp [hb]
    phase := by simp }

theorem setPhase_done (c : Chan) (q : DPhase) (s : State) : ChannelDone c q s (setPhase c q s) :=
  modDrv_done c (fun d => { d with phase := q }) s (fun _ => rfl) fun _ => rfl

theorem setCursor_done (c : Chan) (v : BitVec 3) (s : State) : ChannelDone c (s.drv c).phase s (setCursor c v s) :=
  modDrv_done c (fun d => { d with cur := v }) s (fun _ => rfl) fun _ => rfl

theorem nextStep_done (c : Chan) (s : State) : ChannelDone c (s.drv c).phase s (nextStep c s) :=
  modDrv_done c (fun d => { d with step := d.step + 1 }) s (fun _ => rfl) fun _ => rfl

theorem setSeq_done (c : Chan) (j : Nat) (s : State) : ChannelDone c (s.drv c).phase s (setSeq c j s) :=
  modDrv_done c (fun d => { d with seq := BitVec.ofNat 4 j }) s (fun _ => rfl) fun _ => rfl

theorem beginTransfer_done (c : Chan) (rs : Bool) (b : Byte) (s : State) :
    ChannelDone c .xfer s (beginTransfer c rs b s) :=
  modDrv_done c (fun d => { d with byte := b, rs := rs, step := 0, phase := .xfer }) s (fun _ => rfl) fun _ => rfl

theorem finish_works (c : Chan) (s : State) : WorksOn c .idle s (finish c s) :=
  (setPhase_done c .done s).after (setPhase_done c .idle _)

theorem setCursor_finish_works (c : Chan) (v : BitVec 3) (s : State) :
    WorksOn c .idle s (finish c (setCursor c v s)) := (finish_works c _).after (setCursor_done c v s)

theorem sleep_works (c : Chan) (s : State) (n : Nat) : WorksOn c (s.drv c).phase s (s.sleep n) := by
  have hdrv : ∀ k, ({ (s.beginSleep n).endSleep n with rstIn := k } : State).drv c = s.drv c := by
    cases c <;> exact fun _ => rfl
  refine sleep_ends (.channel c) s n (fun k hk => ⟨⟨hk, ?_⟩, ?_, ?_⟩) fun _ => .reset
  · rw [hdrv]; exact id
  · rw [hdrv]; exact id
  · rw [hdrv]

/-- The wait for the answer to a request that stands on the bus. -/
theorem readyWait_works {c : Chan} {v : View → View} {s u : State}
    (hv : ∀ x : View, x.text.wf = true → (v x).text.wf = true) (h : ChannelBusy c s u) :
    WorksOn c (u.drv c).phase s (readyWait c v u) := by
  rcases readyWait_cases c v u with ⟨w, r, -, -, hw⟩ | ⟨-, -, hw⟩ | ⟨n, -, hw⟩ <;> rw [hw]
  · have hseen : Keeps (.channel c) u (u.readySeen c w r v) :=
      have hmod := (Keeps.modLine c (fun l => { l with ready := r, view := v l.view }) u fun l => hv l.view).trans
        (.modDrv c (fun d => { d with busReq := .none }) _)
      ⟨hmod.rest, hmod.awake, hmod.rstIn, hmod.views⟩
    refine Keeps.resetPoint (h.keeps.trans hseen) (fun k hk => ⟨⟨hk, fun hi => ?_⟩, fun _ => ?_, ?_⟩) fun _ => .reset
    · have := h.inited hi
      cases c <;> simpa [State.readySeen] using this
    · cases c <;> simp [State.readySeen, State.modDrv, State.modLine, State.emit]
    · cases c <;> simp [State.readySeen, State.modDrv, State.modLine, State.emit]
  · exact .stalled h
  · have hgive : Keeps (.channel c) u (({ u with time := u.time + n } : State).emit (.busTimeout c)) :=
      ⟨rfl, id, rfl, id⟩
    refine Run.Ends.andThen (P := fun t => ChannelStopped c s t.halt) ?_ fun t ht => ht
    refine resetPoint_ends _ (fun k hk => ?_) fun hr => .reset ?_
    · have hbusy : ChannelBusy c u
          { ({ u with time := u.time + n } : State).emit (.busTimeout c) with rstIn := k } := by
        refine ⟨⟨hgive.trans (.rstIn_eq _ _ hk), fun hi => ?_⟩, ?_⟩
        · cases c <;> exact hi
        · have := h.busy
          cases c <;> exact this
      have hgave : ChannelStopped c s _ := .gaveUp (hbusy.after h.toChannelWorked)
      exact hgave
    · exact WasReset.of_keeps h.keeps ⟨hr, rfl, rfl, rfl, rfl, id⟩

/-- A request and the wait for its answer. -/
theorem request_works {c : Chan} {v : View → View} {s u : State}
    (hv : ∀ x : View, x.text.wf = true → (v x).text.wf = true) (h : ChannelBusy c s u) :
    WorksOn c (u.drv c).phase s ((resetPoint u).andThen (readyWait c v)) := by
  have hdrv : ∀ k, ({ u with rstIn := k } : State).drv c = u.drv c := by cases c <;> exact fun _ => rfl
  refine Run.Ends.andThen (P := fun t => ChannelBusy c s t ∧ t.drv c = u.drv c) ?_ ?_
  · refine Keeps.resetPoint h.keeps (fun k hk => ⟨⟨⟨hk, ?_⟩, ?_⟩, hdrv k⟩) fun _ => .reset
    · rw [hdrv]; exact h.inited
    · rw [hdrv]; exact h.busy
  · rintro t ⟨ht, hd⟩
    rw [← hd]
    exact readyWait_works hv ht

theorem sendByte_works (c : Chan) (b : Byte) (v : View → View) (s : State)
    (hv : ∀ x : View, x.text.wf = true → (v x).text.wf = true) : WorksOn c (s.drv c).phase s (sendByte c b v s) := by
  have hbusy : ChannelBusy c s (s.requestData c b) :=
    { keeps := (Keeps.modDrv c _ s).trans (.emit _ _ _)
      inited := by simp [State.requestData]
      busy := by simp [State.requestData] }
  have hphase : ((s.requestData c b).drv c).phase = (s.drv c).phase := by simp [State.requestData]
  rw [← hphase]
  exact request_works hv hbusy

theorem stepDelay_works (c : Chan) (s : State) : WorksOn c (s.drv c).phase s (stepDelay s) := sleep_works c s _

theorem sendFrame_works (c : Chan) (n : Nibble) (en rs : Bool) (v : View → View) (s : State)
    (hv : ∀ x : View, x.text.wf = true → (v x).text.wf = true) :
    WorksOn c (s.drv c).phase s (sendFrame c n en rs v s) :=
  ((sendByte_works c _ v s hv).andKeep (stepDelay_works c)).andKeep (nextStep_done c)

theorem sendNibble_works (c : Chan) (n : Nibble) (rs : Bool) (v : View → View) (s : State)
    (hv : ∀ x : View, x.text.wf = true → (v x).text.wf = true) :
    WorksOn c (s.drv c).phase s (sendNibble c n rs v s) :=
  (sendFrame_works c n true rs id s fun _ => id).andKeep fun t => sendFrame_works c n false rs v t hv

theorem transfer_works (c : Chan) (rs : Bool) (b : Byte) (s : State) : WorksOn c .xfer s (transfer c rs b s) := by
  have hbegin := beginTransfer_done c rs b s
  have hhigh := sendNibble_works c (highNibble b) rs id (beginTransfer c rs b s) fun _ => id
  rw [hbegin.phase] at hhigh
  exact (hhigh.after hbegin).andKeep fun t => sendNibble_works c _ rs _ t (View.receive_wf t.cfg rs b)

theorem writeCommand_works (c : Chan) (b : Byte) (s : State) : WorksOn c .idle s (writeCommand c b s) :=
  (transfer_works c false b s).andThen (finish_works c)

theorem writeChar_works (c : Chan) (b : Byte) (s : State) : WorksOn c .idle s (writeChar c b s) :=
  (transfer_works c true b s).andThen fun t => setCursor_finish_works c _ t

theorem moveCursor_works (c : Chan) (o : BitVec 2) (s : State) : WorksOn c .idle s (moveCursor c o s) :=
  (transfer_works c false _ s).andThen (setCursor_finish_works c _)

theorem settle_works (c : Chan) (n : Nat) (s : State) :
    WorksOn c .settle s ((setPhase c .settle s).sleep n) := by
  have hphase := setPhase_done c .settle s
  have hsleep := sleep_works c (setPhase c .settle s) n
  rw [hphase.phase] at hsleep
  exact hsleep.after hphase

theorem clearDisplay_works (c : Chan) (s : State) : WorksOn c .idle s (clearDisplay c s) :=
  (((transfer_works c false _ s).andThen fun t => transfer_works c false _ t).andThen
    fun t => settle_works c _ t).andThen (setCursor_finish_works c 0)

theorem sendRaw_works (c : Chan) (b : Byte) (s : State) : WorksOn c (s.drv c).phase s (sendRaw c b s) :=
  (sendByte_works c b id s fun _ => id).andKeep (stepDelay_works c)

theorem sendPairs_works (c : Chan) (ps : List (Byte × Byte)) (j : Nat) (s : State) :
    WorksOn c (s.drv c).phase s (sendPairs c ps j s) := by
  induction ps generalizing j s with
  | nil => exact ⟨⟨.refl _ s, id⟩, id, rfl⟩
  | cons p ps ih =>
    have hseq := setSeq_done c j s
    have hfirst := sendRaw_works c p.1 (setSeq c j s)
    rw [hseq.phase] at hfirst
    exact ((hfirst.after hseq).andKeep (sendRaw_works c p.2)).andKeep (ih (j + 1))

theorem startBus_works (c : Chan) (s : State) : WorksOn c .start s (startBus c s) := by
  have hbusy : ChannelBusy c (setPhase c .start s) ((setPhase c .start s).requestStart c) :=
    { keeps := ((Keeps.modDrv c (fun d => { d with busReq := .start }) _).trans
      (.modLine c (fun l => { l with started := true }) _ fun _ => id)).trans (.emit _ _ (.busStart c))
      inited := by simp [State.requestStart]
      busy := by simp [State.requestStart] }
  have h := (request_works (v := id) (fun _ => id) hbusy).after (setPhase_done c .start s)
  have hphase : (((setPhase c .start s).requestStart c).drv c).phase = .start := by
    simp [State.requestStart, setPhase]
  rwa [hphase] at h

theorem addressBus_works (c : Chan) (s : State) : WorksOn c .addr s (addressBus c s) := by
  have hbusy : ChannelBusy c (setPhase c .addr s) ((setPhase c .addr s).requestAddr c (busAddr s.cfg c)) :=
    { keeps := (Keeps.modDrv c _ _).trans (.emit _ _ _)
      inited := by simp [State.requestAddr]
      busy := by simp [State.requestAddr] }
  have h := (request_works (v := id) (fun _ => id) hbusy).after (setPhase_done c .addr s)
  have hphase : (((setPhase c .addr s).requestAddr c (busAddr s.cfg c)).drv c).phase = .addr := by
    simp [State.requestAddr, setPhase]
  rwa [hphase] at h

theorem markInitialised_done (c : Chan) (s : State) : ChannelDone c (s.drv c).phase s (markInitialised c s) :=
  { keeps := (Keeps.modDrv c _ s).trans (.modLine c _ _ fun _ => id)
    inited := by simp [markInitialised]
    idleBus := by simp [markInitialised]
    phase := by simp [markInitialised] }

theorem initDisplay_works (c : Chan) (s : State) : WorksOn c .idle s (initDisplay c s) := by
  have hpairs : ∀ t, WorksOn c .seq t (sendPairs c t.cfg.initSeq 0 (setPhase c .seq t)) := fun t => by
    have hseq := setPhase_done c .seq t
    have h := sendPairs_works c t.cfg.initSeq 0 (setPhase c .seq t)
    rw [hseq.phase] at h
    exact h.after hseq
  exact (((startBus_works c s).andThen (addressBus_works c)).andThen hpairs).andThen fun t =>
    (clearDisplay_works c _).after (markInitialised_done c t)

/-- When DCD.INITIALIZE returns the channel is initialised (43_display_channel_driver.md R170). -/
theorem initDisplay_inited {c : Chan} {s t : State} (h : initDisplay c s = .done t) : (t.drv c).inited = true := by
  obtain ⟨u, -, hu⟩ := Run.andThen_done h
  have hclear := clearDisplay_works c (markInitialised c u)
  rw [hu] at hclear
  exact hclear.inited (by simp [markInitialised])

/-! ### The display operations -/

theorem ifInitialised_works {c : Chan} {q : DPhase} {s t : State} {r : Run} (hr : WorksOn c q s r)
    (h : ifInitialised c s r = .next t) : ChannelDone c q s t ∨ ChannelStopped c s t := by
  unfold ifInitialised at h
  split at h
  · exact Run.Ends.result hr h
  · cases h

theorem ifUninitialised_works {c : Chan} {q : DPhase} {s t : State} {r : Run} (hr : WorksOn c q s r)
    (h : ifUninitialised c s r.result = .next t) : ChannelDone c q s t ∨ ChannelStopped c s t := by
  unfold ifUninitialised at h
  split at h
  · cases h
  · split at h
    · cases h
    · exact Run.Ends.result hr h

theorem dcClear_works (c : Chan) (b : Byte) (s : State) :
    WorksOn c .idle s ((transfer c false b s).andThen fun t => finish c (setCursor c 0 t)) :=
  (transfer_works c false b s).andThen (setCursor_finish_works c 0)

/-- Everything a display operation can do from an idle driver: it returns with the driver idle, or stops. -/
theorem exec_display {i : Instr} {c : Chan} {s t : State} (hi : displayChan i = some c)
    (hidle : (s.drv c).phase = .idle) (h : exec i s = .next t) : ChannelDone c .idle s t ∨ ChannelStopped c s t := by
  have pieces : ∀ {d : Chan} {r : Run}, some d = some c → WorksOn d (s.drv d).phase s r →
      ifInitialised d s r = .next t → ChannelDone c .idle s t ∨ ChannelStopped c s t := fun hd hr ht => by
    cases hd
    rw [hidle] at hr
    exact ifInitialised_works hr ht
  cases i with
  | dcdInitializeCh1 => cases hi; exact ifUninitialised_works (initDisplay_works _ s) h
  | dcdInitializeCh2 => cases hi; exact ifUninitialised_works (initDisplay_works _ s) h
  | dcdSendbyteCh1 b => exact pieces hi (sendByte_works _ b id s fun _ => id) h
  | dcdSendbyteCh2 b => exact pieces hi (sendByte_works _ b id s fun _ => id) h
  | dcdSendnibbleCh1 n rs => exact pieces hi (sendNibble_works _ n rs id s fun _ => id) h
  | dcdSendnibbleCh2 n rs => exact pieces hi (sendNibble_works _ n rs id s fun _ => id) h
  | dcdWritecommandCh1 b => cases hi; exact ifInitialised_works (writeCommand_works _ b s) h
  | dcdWritecommandCh2 b => cases hi; exact ifInitialised_works (writeCommand_works _ b s) h
  | dcdWritecharCh1 b => cases hi; exact ifInitialised_works (writeChar_works _ b s) h
  | dcdWritecharCh2 b => cases hi; exact ifInitialised_works (writeChar_works _ b s) h
  | dcdClearCh1 => cases hi; exact ifInitialised_works (clearDisplay_works _ s) h
  | dcdClearCh2 => cases hi; exact ifInitialised_works (clearDisplay_works _ s) h
  | dcdMovecursorCh1 o => cases hi; exact ifInitialised_works (moveCursor_works _ o s) h
  | dcdMovecursorCh2 o => cases hi; exact ifInitialised_works (moveCursor_works _ o s) h
  | dcdDisplayoffCh1 => cases hi; exact ifInitialised_works (writeCommand_works _ _ s) h
  | dcdDisplayoffCh2 => cases hi; exact ifInitialised_works (writeCommand_works _ _ s) h
  | dcClear c => cases hi; exact ifInitialised_works (dcClear_works _ _ s) h
  | dcHome c => cases hi; exact ifInitialised_works (dcClear_works _ _ s) h
  | dcSetcursor c o => cases hi; exact ifInitialised_works (moveCursor_works _ o s) h
  | dcDisplayoff c => cases hi; exact ifInitialised_works (writeCommand_works _ _ s) h
  | dcWritechar c b => cases hi; exact ifInitialised_works (writeChar_works _ b s) h
  | bfCommand c n en => exact pieces hi (sendFrame_works _ n en _ id s fun _ => id) h
  | bfCharacter c n en => exact pieces hi (sendFrame_works _ n en _ id s fun _ => id) h
  | _ => cases hi

/-! ### The scanner -/

/-- The checks a build the spec allows has passed (00_scope.md R11; U14 to U17, U20). -/
theorem checks_of_wf {p : Params} (h : p.wf = true) :
    p.keyOk = true ∧ p.iterCountOk = true ∧ p.windowOk = true ∧ p.keymapSizeOk = true ∧ p.keymapDistinctOk = true ∧
      p.keymapSlot0Ok = true ∧ p.keymapDigitsOk = true ∧ p.initSeqOk = true ∧ p.cursorBaseOk = true ∧
      p.commandsOk = true := by
  simpa only [Params.wf, Bool.and_eq_true, and_assoc] using h

/-- A digit slot of a build the spec allows holds a digit 0 to 9 (20_memory.md R55). -/
theorem keymapRom_digit_le {p : Params} (hwf : p.wf = true) {j : Nat} (hj : (keymapRom p j).isDigit = true) :
    (keymapRom p j).digit.toNat ≤ 9 := by
  obtain ⟨-, -, -, -, -, -, hok, -⟩ := checks_of_wf hwf
  simp only [Params.keymapDigitsOk, Bool.and_eq_true, List.all_eq_true, Bool.or_eq_true, Bool.not_eq_true',
    decide_eq_true_eq] at hok
  obtain ⟨-, hdigits⟩ := hok
  by_cases hlt : j < p.keymap.length
  · have hmem : keymapRom p j ∈ p.keymap := by
      rw [keymapRom, List.getD_eq_getElem _ _ hlt]
      exact List.getElem_mem hlt
    rcases hdigits _ hmem with hno | hle
    · rw [hj] at hno; cases hno
    · exact hle
  · rw [keymapRom, List.getD_eq_default _ _ (by omega)] at hj
    cases hj

/-- Slot 0 of a build the spec allows is a digit slot (20_memory.md R55). -/
theorem keymapRom_zero_isDigit {p : Params} (hwf : p.wf = true) : (keymapRom p 0).isDigit = true := by
  obtain ⟨-, -, -, -, -, hok, -⟩ := checks_of_wf hwf
  exact (Bool.and_eq_true _ _ ▸ hok : _ ∧ _).1

/-- From `s` to `t` only the scanner has worked, and it has delivered nothing. -/
structure ScanWorked (s t : State) : Prop where
  keeps : Keeps .scanner s t
  ret : t.ret = s.ret

theorem ScanWorked.trans {s t u : State} (h : ScanWorked s t) (k : ScanWorked t u) : ScanWorked s u :=
  ⟨h.keeps.trans k.keeps, k.ret.trans h.ret⟩

/-- From `s` to `t` the scanner has delivered a digit and is idle; the rows are driven with `v`. -/
structure Delivered (v : Nibble) (s t : State) : Prop where
  keeps : Keeps .scanner s t
  phase : t.ksPhase = .idle
  rows : t.kpRow = v
  ret : s.cfg.wf = true → t.ret.inRange = true

/-- How a scan can fail to return: `rst` came, or it waits for a key (40_keypad_scanner.md R130). -/
inductive ScanStopped (s : State) : State → Prop
  | reset {t : State} (h : WasReset s t) : ScanStopped s t
  | waiting {t : State} (h : ScanWorked s t) (hk : t.ksPhase ≠ .idle) : ScanStopped s t

theorem Delivered.after {v : Nibble} {s t u : State} (h : Keeps .scanner s t) (k : Delivered v t u) :
    Delivered v s u := by
  have hcfg : t.cfg = s.cfg := h.read State.cfg rfl
  exact ⟨h.trans k.keeps, k.phase, k.rows, hcfg ▸ k.ret⟩

theorem ScanStopped.after {s t u : State} (h : ScanWorked s t) (k : ScanStopped t u) : ScanStopped s u := by
  cases k with
  | reset k => exact .reset (k.of_keeps h.keeps)
  | waiting k hk => exact .waiting (h.trans k) hk

/-- An operation of the scanner that leaves the rows driven with `v` when it returns. -/
def Scans (v : Nibble) (s : State) (r : Run) : Prop := r.Ends (Delivered v s) (ScanStopped s)

theorem Scans.after {v : Nibble} {s t : State} {r : Run} (h : ScanWorked s t) (k : Scans v t r) : Scans v s r :=
  k.mono (fun _ => .after h.keeps) fun _ => .after h

/-- Registers of the scanner alone are written. -/
theorem ScanWorked.of_rest {s t : State} (h : t.without .scanner = s.without .scanner) (hd : t.dlyReq = s.dlyReq)
    (hr : t.rstIn = s.rstIn) (hv : s.Canonical → t.Canonical) (hret : t.ret = s.ret) : ScanWorked s t :=
  ⟨⟨h, fun a => hd.trans a, by rw [hr], hv⟩, hret⟩

theorem deliverDigit_scans {d : Nibble} {s : State} (hd : s.cfg.wf = true → d.toNat ≤ 9) :
    Scans s.kpRow s (deliverDigit d s) :=
  { keeps := ⟨rfl, id, rfl, id⟩
    phase := rfl
    rows := rfl
    ret := fun hwf => decide_eq_true (hd hwf) }

theorem noDigit_scans (s : State) : Scans s.kpRow s (noDigit s) := by
  refine Run.Ends.andThen (P := fun t => ScanWorked s t ∧ t.kpRow = s.kpRow) ?_ ?_
  · exact resetPoint_ends _ (fun k hk => ⟨⟨⟨rfl, id, hk, id⟩, rfl⟩, rfl⟩) fun hr =>
      .reset ⟨hr, rfl, rfl, rfl, rfl, id⟩
  · rintro t ⟨ht, hrows⟩
    rw [← hrows]
    exact Scans.after ht (deliverDigit_scans fun hwf => keymapRom_digit_le hwf (keymapRom_zero_isDigit hwf))

theorem lookupPattern_scans (s : State) : Scans s.kpRow s (lookupPattern s) := by
  unfold lookupPattern
  cases findSlot s.ksPat s.cfg.keymap 0 with
  | none =>
    have hslot : ScanWorked s { s with ksSlot := 0 } := .of_rest rfl rfl rfl id rfl
    exact .after hslot (noDigit_scans _)
  | some j =>
    have hslot : ScanWorked s { s with ksSlot := BitVec.ofNat 4 j } := .of_rest rfl rfl rfl id rfl
    dsimp only
    split
    · next hj => exact .after hslot (deliverDigit_scans fun hwf => keymapRom_digit_le hwf hj)
    · exact .after hslot (noDigit_scans _)

/-- An event of the scanner, and what follows when `rst` does not come. -/
theorem ScanWorked.resetPoint {s u : State} (h : ScanWorked s u) {P : State → Prop}
    (hp : ∀ k, ScanWorked s { u with rstIn := k } → P { u with rstIn := k }) :
    (resetPoint u).Ends P (ScanStopped s) :=
  Keeps.resetPoint h.keeps (fun k hk => hp k ⟨hk, h.ret⟩) fun _ => .reset

theorem capturePattern_scans (c : Nibble) (s : State) : Scans (allInactive s.cfg) s (capturePattern c s) := by
  let u := (setKs .lookup { s with ksPat := keyPattern s.kpRow c }).driveRows (allInactive s.cfg)
  have hu : ScanWorked s u := .of_rest rfl rfl rfl id rfl
  refine Run.Ends.andThen (P := fun t => ScanWorked s t ∧ t.kpRow = allInactive s.cfg) ?_ ?_
  · exact hu.resetPoint fun k hk => ⟨hk, rfl⟩
  · rintro t ⟨ht, hrows⟩
    rw [← hrows]
    exact Scans.after ht (lookupPattern_scans t)

theorem strobeRow_ends (s : State) : (strobeRow s).Ends (ScanWorked s) (ScanStopped s) := by
  have hdrive : ScanWorked s ((setKs .drive s).driveRows (strobe s.cfg s.ksRow)) := .of_rest rfl rfl rfl id rfl
  refine Run.Ends.andThen (hdrive.resetPoint fun _ => id) fun t ht => ?_
  have hsettle : ScanWorked t (setKs .settle t) := .of_rest rfl rfl rfl id rfl
  exact sleep_ends .scanner _ _ (fun k hk => (ht.trans hsettle).trans ⟨hk, rfl⟩) fun u hu =>
    .reset (hu.of_keeps (ht.trans hsettle).keeps)

theorem sampleColumns_ends (s : State) : (sampleColumns s).Ends (ScanWorked s) (ScanStopped s) := by
  have hsample : ScanWorked s ((setKs .sample { s with cols := s.cols.tail }).emit (.sample (columnsNow s))) :=
    .of_rest rfl rfl rfl id rfl
  exact hsample.resetPoint fun _ => id

theorem scanRow_scans {more : State → Run}
    (hmore : ∀ t, t.ksPhase ≠ .idle → Scans (allInactive t.cfg) t (more t)) (s : State) :
    Scans (allInactive s.cfg) s (scanRow more s) := by
  refine Run.Ends.andThen (strobeRow_ends s) fun t ht => ?_
  refine Run.Ends.andThen ((sampleColumns_ends t).mono (fun _ => ht.trans) fun _ => .after ht) fun u hu => ?_
  have hcfg : u.cfg = s.cfg := hu.keeps.read State.cfg rfl
  rw [← hcfg]
  split
  · exact Scans.after hu (capturePattern_scans _ u)
  · have hnext : ScanWorked u (nextRow u) := .of_rest rfl rfl rfl id rfl
    exact Scans.after (hu.trans hnext) (hmore (nextRow u) (by simp [nextRow, setKs]))

/-- A scan under way goes on until it delivers, is cut off, or waits. -/
theorem scanRows_scans (n : Nat) (s : State) (hs : s.ksPhase ≠ .idle) :
    Scans (allInactive s.cfg) s (scanRows n s) := by
  induction n generalizing s with
  | zero => exact .waiting ⟨.refl _ s, rfl⟩ hs
  | succ n ih => exact scanRow_scans ih s

theorem resumeScan_scans (s : State) (hs : s.ksPhase ≠ .idle) : Scans (allInactive s.cfg) s (resumeScan s) :=
  scanRows_scans _ s hs

theorem readDigit_scans (s : State) : Scans (allInactive s.cfg) s (readDigit s) := by
  have hdrive : ScanWorked s (setKs .drive { s with ksRow := 0 }) := .of_rest rfl rfl rfl id rfl
  exact .after hdrive (scanRows_scans _ _ (by simp [setKs]))

theorem slotPattern_scans (k : Nat) (s : State) : Scans s.kpRow s (slotPattern k s) :=
  have hpat : ScanWorked s (setKs .lookup { s with ksPat := (keymapRom s.cfg k).pattern }) :=
    .of_rest rfl rfl rfl id rfl
  .after hpat (lookupPattern_scans _)

/-! ### The player -/

/-- From `s` to `t` only the player has worked; a LED that was off is off. -/
structure Played (s t : State) : Prop where
  keeps : Keeps .player s t
  ledOff : s.led = false → t.led = false

theorem Played.trans {s t u : State} (h : Played s t) (k : Played t u) : Played s u :=
  ⟨h.keeps.trans k.keeps, fun l => k.ledOff (h.ledOff l)⟩

/-- Player registers are written, the line alone, or the line and the rest of an event. -/
theorem Keeps.writeLed {s u : State} (h : Keeps .player s u) (b : Bool) {Q : State → Prop}
    (hq : ∀ t, WasReset s t → Q t) :
    (writeLed b u).Ends (fun t => Keeps .player s t ∧ t.led = b) Q :=
  have hline : Keeps .player s (u.driveLed b) := h.trans ⟨rfl, id, rfl, id⟩
  hline.resetPoint (fun _ hk => ⟨hk, rfl⟩) hq

theorem playerSleep_ends {s u : State} (h : Keeps .player s u) (n : Nat) :
    (u.sleep n).Ends (fun t => Keeps .player s t ∧ t.led = u.led) (WasReset s) :=
  sleep_ends .player u n (fun _ hk => ⟨h.trans hk, rfl⟩) fun _ ht => ht.of_keeps h

theorem playMark_ends (w : Byte) (i : Nat) (s : State) :
    (playMark w i s).Ends (fun t => Keeps .player s t ∧ t.led = false) (WasReset s) := by
  have hon : Keeps .player s (setPlayer .markOn { s with lmpIdx := BitVec.ofNat 3 i }) := ⟨rfl, id, rfl, id⟩
  refine Run.Ends.andThen (P := Keeps .player s) ?_ fun t ht => ?_
  · refine Run.Ends.andThen (hon.writeLed true fun _ => id) fun u hu => ?_
    exact (playerSleep_ends hu.1 _).mono (fun _ h => h.1) fun _ => id
  · have hoff : Keeps .player s (setPlayer .gapOff t) := ht.trans ⟨rfl, id, rfl, id⟩
    refine Run.Ends.andThen (hoff.writeLed false fun _ => id) fun u hu => ?_
    rw [← hu.2]
    exact playerSleep_ends hu.1 _

theorem playMarks_ends (w : Byte) (n i : Nat) (s : State) : (playMarks w n i s).Ends (Played s) (WasReset s) := by
  induction n generalizing i s with
  | zero => exact ⟨.refl _ s, id⟩
  | succ n ih =>
    refine Run.Ends.andThen (playMark_ends w i s) fun t ht => (ih (i + 1) t).mono (fun u hu => ?_) fun _ hu => ?_
    · exact Played.trans ⟨ht.1, fun _ => ht.2⟩ hu
    · exact hu.of_keeps ht.1

/-- A play returns with the LED off and the player idle, unless `rst` cuts it off (44_led_morse_player.md R191). -/
theorem playWord_ends (w : Byte) (s : State) :
    (playWord w s).Ends (fun t => Played s t ∧ t.lmpState = .idle) (WasReset s) := by
  refine Run.Ends.andThen (P := Played s) ?_ fun t ht => ⟨ht.trans ⟨⟨rfl, id, rfl, id⟩, id⟩, rfl⟩
  refine Run.Ends.andThen (playMarks_ends w _ 0 s) fun t ht => ?_
  have hgap : Keeps .player s (setPlayer .gapOff t) := ht.keeps.trans ⟨rfl, id, rfl, id⟩
  exact (playerSleep_ends hgap _).mono (fun u hu => ⟨hu.1, fun hs => hu.2.trans (ht.ledOff hs)⟩) fun _ => id

end Sys2Proof.Machine
end

section
/-! The invariants of the block (10_state.md R40, R39, R32, R26) across every step. Between operations the block is
`Calm`; a component's operation returns calm or stops where no further operation can begin, and the controller's
operations are chains of those. -/

namespace Sys2Proof.Machine

open Sys2Proof.Config

/-! ### Calm states -/

/-- The invariants hold in a build the spec allows, no request is outstanding and no scan waits. -/
structure Calm (s : State) : Prop where
  sound : s.Sound
  build : s.cfg.wf = true
  busFree : ∀ c, (s.drv c).busReq = .none
  scanIdle : s.ksPhase = .idle

/-- The invariants hold, and no operation can begin. -/
structure AtRest (s : State) : Prop where
  sound : s.Sound
  busy : s.free = false

theorem not_stalled_iff (s : State) : s.stalled = false ↔ ∀ c, (s.drv c).busReq = .none := by
  simp only [State.stalled, Bool.or_eq_false_iff, bne_eq_false_iff_eq]
  exact ⟨fun ⟨h1, h2⟩ c => by cases c <;> assumption, fun h => ⟨h .ch1, h .ch2⟩⟩

theorem stalled_of_busy {s : State} {c : Chan} (h : (s.drv c).busReq ≠ .none) : s.stalled = true := by
  by_contra hs
  exact h ((not_stalled_iff s).1 (Bool.eq_false_iff.2 hs) c)

theorem not_scanning_iff (s : State) : s.scanning = false ↔ s.ksPhase = .idle := by
  simp [State.scanning]

theorem Calm.of_open {s : State} (ho : s.open) (hs : s.Sound) : Calm s := by
  obtain ⟨hwf, -, hfree⟩ := ho
  simp only [State.free, Bool.and_eq_true, Bool.not_eq_true'] at hfree
  obtain ⟨⟨⟨-, hstalled⟩, hscanning⟩, -⟩ := hfree
  exact ⟨hs, hwf, (not_stalled_iff s).1 hstalled, (not_scanning_iff s).1 hscanning⟩

theorem State.Sound.canonical {s : State} (h : s.Sound) : s.Canonical := fun c => by
  cases c
  · exact h.view1Canonical
  · exact h.view2Canonical

theorem iterCount_lt {p : Params} (hwf : p.wf = true) : p.iterCount < 2 ^ p.posWidth := by
  obtain ⟨-, hok, -⟩ := checks_of_wf hwf
  exact of_decide_eq_true hok

/-- A block that holds its reset values, in an environment with canonical displays, is sound. -/
theorem sound_of_resetBlock {s : State} (hwf : s.cfg.wf = true) (hblock : s.toBlock = .reset s.cfg)
    (hret : s.ret = .none) (hv : s.Canonical) : s.Sound := by
  obtain ⟨b, env, cfg, events, time, ret, slot⟩ := s
  obtain rfl : b = .reset cfg := hblock
  obtain rfl : ret = .none := hret
  exact {
    digRange := Nat.zero_le 9
    encRange := Nat.zero_le 9
    retRange := rfl
    posRange := Nat.two_pow_pos _
    remRange := iterCount_lt hwf
    cntRange := Nat.zero_le 4
    cntAtRead := fun _ => Nat.zero_le 3
    windowLength := rfl
    ledOff := rfl
    playerIdle := rfl
    noSleep := rfl
    channelsIdle := fun c _ => by cases c <;> rfl
    rowsReleased := fun _ => rfl
    oneRequest := .inl rfl
    scanAlone := fun _ => rfl
    view1Canonical := hv .ch1
    view2Canonical := hv .ch2 }

theorem WasReset.sound {s t : State} (h : WasReset s t) (hwf : s.cfg.wf = true) (hv : s.Canonical) : t.Sound :=
  sound_of_resetBlock (h.cfg ▸ hwf) (h.cfg ▸ h.block) h.ret (h.views hv)

theorem WasReset.atRest {s t : State} (h : WasReset s t) (hs : Calm s) : AtRest t :=
  ⟨h.sound hs.build hs.sound.canonical, by simp [State.free, h.rst]⟩

/-! ### What the components keep, for the invariants -/

/-- The invariants in the registers that are no component's own are kept, and those of the components' registers are
given. -/
theorem State.Sound.of_keeps {x : Component} {s t : State} (hs : s.Sound) (k : Keeps x s t)
    (hret : t.ret.inRange = true) (hled : t.led = false) (hplayer : t.lmpState = .idle)
    (hidle : ∀ c, (t.drv c).busReq = .none → (t.drv c).phase = .idle)
    (hrows : t.ksPhase = .idle → t.kpRow = allInactive t.cfg)
    (hone : t.drv1.busReq = .none ∨ t.drv2.busReq = .none) (hscan : t.ksPhase ≠ .idle → t.stalled = false) :
    t.Sound := by
  have hcfg : t.cfg = s.cfg := k.read State.cfg rfl
  have hcnt : t.cnt = s.cnt := k.read (·.cnt) rfl
  have hphase : t.scPhase = s.scPhase := k.read (·.scPhase) rfl
  have hwindow : t.window = s.window := k.read (·.window) rfl
  have hpos : t.pos = s.pos := k.read (·.pos) rfl
  have hrem : t.rem = s.rem := k.read (·.rem) rfl
  have hdig : t.dig = s.dig := k.read (·.dig) rfl
  have henc : t.enc = s.enc := k.read (·.enc) rfl
  have hv := k.views hs.canonical
  exact {
    digRange := hdig ▸ hs.digRange
    encRange := henc ▸ hs.encRange
    retRange := hret
    posRange := by rw [hpos, hcfg]; exact hs.posRange
    remRange := by rw [hrem, hcfg]; exact hs.remRange
    cntRange := hcnt ▸ hs.cntRange
    cntAtRead := by rw [hcnt, hphase]; exact hs.cntAtRead
    windowLength := by rw [hwindow, hcnt]; exact hs.windowLength
    ledOff := hled
    playerIdle := hplayer
    noSleep := k.awake hs.noSleep
    channelsIdle := hidle
    rowsReleased := hrows
    oneRequest := hone
    scanAlone := hscan
    view1Canonical := hv .ch1
    view2Canonical := hv .ch2 }

/-- A channel's work, whatever it leaves on its own bus, given that its driver is idle if the bus is. -/
theorem Calm.sound_of_worked {c : Chan} {s t : State} (hs : Calm s) (k : Keeps (.channel c) s t)
    (hc : (t.drv c).busReq = .none → (t.drv c).phase = .idle) : t.Sound := by
  have hother : ∀ c', c' ≠ c → (t.drv c').busReq = .none := fun c' h => by rw [k.otherDrv h]; exact hs.busFree c'
  have hks : t.ksPhase = .idle := (k.read (·.ksPhase) rfl).trans hs.scanIdle
  refine hs.sound.of_keeps k ?_ ?_ ?_ (fun c' => ?_) (fun _ => ?_) ?_ fun h => absurd hks h
  · rw [k.read State.ret rfl]; exact hs.sound.retRange
  · rw [k.read (·.led) rfl]; exact hs.sound.ledOff
  · rw [k.read (·.lmpState) rfl]; exact hs.sound.playerIdle
  · by_cases h : c' = c
    · subst h; exact hc
    · rw [k.otherDrv h]; exact hs.sound.channelsIdle c'
  · rw [k.read (·.kpRow) rfl, k.read State.cfg rfl]; exact hs.sound.rowsReleased hs.scanIdle
  · cases c
    · exact .inr (hother .ch2 (by decide))
    · exact .inl (hother .ch1 (by decide))

theorem ChannelDone.calm {c : Chan} {s t : State} (h : ChannelDone c .idle s t) (hs : Calm s) : Calm t where
  sound := hs.sound_of_worked h.keeps fun _ => h.phase
  build := by rw [h.keeps.read State.cfg rfl]; exact hs.build
  busFree := fun c' => by
    by_cases hc : c' = c
    · subst hc; exact h.idleBus (hs.busFree c')
    · rw [h.keeps.otherDrv hc]; exact hs.busFree c'
  scanIdle := (h.keeps.read (·.ksPhase) rfl).trans hs.scanIdle

/-- BusTimeout halts the controller and spoils no invariant (60_exceptions.md R238). -/
theorem State.Sound.halted {s : State} (h : s.Sound) :
    ({ s with scPhase := .halt, stBusTimeout := true } : State).Sound :=
  { h with cntAtRead := fun hd => nomatch hd }

theorem ChannelStopped.atRest {c : Chan} {s t : State} (h : ChannelStopped c s t) (hs : Calm s) : AtRest t := by
  have hbusy : ∀ u, ChannelBusy c s u → u.Sound := fun u hu => hs.sound_of_worked hu.keeps fun hn => absurd hn hu.busy
  cases h with
  | reset h => exact h.atRest hs
  | stalled h => exact ⟨hbusy _ h, by simp [State.free, stalled_of_busy h.busy]⟩
  | gaveUp h => exact ⟨(hbusy _ h).halted, by simp [State.free, State.halted]⟩

theorem Delivered.calm {s t : State} (h : Delivered (allInactive s.cfg) s t) (hwf : s.cfg.wf = true) (hs : s.Sound)
    (hbus : ∀ c, (s.drv c).busReq = .none) : Calm t := by
  have hdrv : ∀ c, t.drv c = s.drv c := h.keeps.drv nofun
  have hcfg : t.cfg = s.cfg := h.keeps.read State.cfg rfl
  have hbus' : ∀ c, (t.drv c).busReq = .none := fun c => by rw [hdrv]; exact hbus c
  refine ⟨hs.of_keeps h.keeps (h.ret hwf) ?_ ?_ (fun c => ?_) (fun _ => ?_) (.inl (hbus' .ch1))
    fun hk => absurd h.phase hk, hcfg ▸ hwf, hbus', h.phase⟩
  · rw [h.keeps.read (·.led) rfl]; exact hs.ledOff
  · rw [h.keeps.read (·.lmpState) rfl]; exact hs.playerIdle
  · rw [hdrv]; exact hs.channelsIdle c
  · rw [hcfg]; exact h.rows

theorem ScanStopped.atRest {s t : State} (h : ScanStopped s t) (hwf : s.cfg.wf = true) (hs : s.Sound)
    (hbus : ∀ c, (s.drv c).busReq = .none) : AtRest t := by
  cases h with
  | reset h => exact ⟨h.sound hwf hs.canonical, by simp [State.free, h.rst]⟩
  | waiting h hk =>
    have hdrv : ∀ c, t.drv c = s.drv c := h.keeps.drv nofun
    have hbus' : ∀ c, (t.drv c).busReq = .none := fun c => by rw [hdrv]; exact hbus c
    have hscanning : t.scanning = true := by simpa [State.scanning] using hk
    refine ⟨hs.of_keeps h.keeps ?_ ?_ ?_ (fun c => ?_) (fun hi => absurd hi hk) (.inl (hbus' .ch1))
      fun _ => (not_stalled_iff t).2 hbus', by simp [State.free, hscanning]⟩
    · rw [h.ret]; exact hs.retRange
    · rw [h.keeps.read (·.led) rfl]; exact hs.ledOff
    · rw [h.keeps.read (·.lmpState) rfl]; exact hs.playerIdle
    · rw [hdrv]; exact hs.channelsIdle c

theorem Played.calm {s t : State} (h : Played s t) (hidle : t.lmpState = .idle) (hs : Calm s) : Calm t := by
  have hdrv : ∀ c, t.drv c = s.drv c := h.keeps.drv nofun
  have hcfg : t.cfg = s.cfg := h.keeps.read State.cfg rfl
  have hks : t.ksPhase = .idle := (h.keeps.read (·.ksPhase) rfl).trans hs.scanIdle
  have hbus : ∀ c, (t.drv c).busReq = .none := fun c => by rw [hdrv]; exact hs.busFree c
  refine ⟨hs.sound.of_keeps h.keeps ?_ (h.ledOff hs.sound.ledOff) hidle (fun c => ?_) (fun _ => ?_)
    (.inl (hbus .ch1)) fun hk => absurd hks hk, hcfg ▸ hs.build, hbus, hks⟩
  · rw [h.keeps.read State.ret rfl]; exact hs.sound.retRange
  · rw [hdrv]; exact hs.sound.channelsIdle c
  · rw [h.keeps.read (·.kpRow) rfl, hcfg]; exact hs.sound.rowsReleased hs.scanIdle

/-! ### The components' operations from a calm state -/

/-- The operation returns in a calm state, the controller's phase as before, or stops at rest. -/
def Safe (s : State) (r : Run) : Prop := r.Ends (fun t => Calm t ∧ t.scPhase = s.scPhase) AtRest

theorem WorksOn.safe {c : Chan} {s : State} {r : Run} (h : WorksOn c .idle s r) (hs : Calm s) : Safe s r :=
  h.mono (fun _ ht => ⟨ht.calm hs, ht.keeps.read (·.scPhase) rfl⟩) fun _ ht => ht.atRest hs

theorem Scans.safe {s : State} {r : Run} (h : Scans (allInactive s.cfg) s r) (hs : Calm s) : Safe s r :=
  h.mono (fun _ ht => ⟨ht.calm hs.build hs.sound hs.busFree, ht.keeps.read (·.scPhase) rfl⟩)
    fun _ ht => ht.atRest hs.build hs.sound hs.busFree

theorem slotPattern_safe (k : Nat) {s : State} (hs : Calm s) : Safe s (slotPattern k s) :=
  Scans.safe (hs.sound.rowsReleased hs.scanIdle ▸ slotPattern_scans k s) hs

theorem playWord_safe (w : Byte) {s : State} (hs : Calm s) : Safe s (playWord w s) :=
  (playWord_ends w s).mono (fun _ ht => ⟨ht.1.calm ht.2 hs, ht.1.keeps.read (·.scPhase) rfl⟩) fun _ ht => ht.atRest hs

/-- A result in range handed to the caller. -/
theorem Calm.withRet {s : State} (hs : Calm s) {r : Ret} (hr : r.inRange = true) : Calm { s with ret := r } :=
  ⟨{ hs.sound with retRange := hr }, hs.build, hs.busFree, hs.scanIdle⟩

theorem encryptDigit_le (p : Params) (d : Nibble) (q : Position) : (encryptDigit p d q).toNat ≤ 9 := by
  simp only [encryptDigit, BitVec.toNat_setWidth, BitVec.toNat_umod]
  refine (Nat.mod_le _ _).trans (Nat.le_of_lt_succ ?_)
  exact Nat.mod_lt _ (by decide)

theorem encryptOp_calm (d : Nibble) (q : Position) {s : State} (hs : Calm s) : Calm (encryptOp d q s) :=
  hs.withRet (decide_eq_true (encryptDigit_le _ _ _))

theorem encodeOp_calm (d : Nibble) {s : State} (hs : Calm s) : Calm (encodeOp d s) := hs.withRet rfl

/-! ### The controller's registers -/

/-- The controller goes to another phase, with a digit in progress only while the window is not full. -/
theorem Calm.setSc {s : State} (hs : Calm s) {ph : ScPhase} (h : ph.inDigit = true → s.cnt.toNat ≤ 3) :
    Calm (setSc ph s) :=
  ⟨{ hs.sound with cntAtRead := h }, hs.build, hs.busFree, hs.scanIdle⟩

/-- The same between two phases with a digit in progress. -/
theorem Calm.setSc_inDigit {s : State} (hs : Calm s) (hd : s.scPhase.inDigit = true) (ph : ScPhase) :
    Calm (Machine.setSc ph s) := hs.setSc fun _ => hs.sound.cntAtRead hd

theorem toDigit_le {r : Ret} (h : r.inRange = true) : r.toDigit.toNat ≤ 9 := by
  cases r with
  | digit d => exact of_decide_eq_true h
  | none => exact Nat.zero_le 9
  | word w => exact Nat.zero_le 9

theorem latchDigit_calm {s : State} (hs : Calm s) : Calm (latchDigit s) :=
  ⟨{ hs.sound with digRange := toDigit_le hs.sound.retRange }, hs.build, hs.busFree, hs.scanIdle⟩

theorem latchEncrypted_calm {s : State} (hs : Calm s) : Calm (latchEncrypted s) :=
  ⟨{ hs.sound with encRange := toDigit_le hs.sound.retRange, posRange := Nat.mod_lt _ (Nat.two_pow_pos _) },
    hs.build, hs.busFree, hs.scanIdle⟩

theorem latchMorse_calm {s : State} (hs : Calm s) : Calm (latchMorse s) :=
  ⟨{ hs.sound with }, hs.build, hs.busFree, hs.scanIdle⟩

theorem setScMi_calm {s : State} (hs : Calm s) (i : BitVec 3) : Calm { s with scMi := i } :=
  ⟨{ hs.sound with }, hs.build, hs.busFree, hs.scanIdle⟩

theorem emptyWindow_calm {s : State} (hs : Calm s) : Calm (emptyWindow s) :=
  ⟨{ hs.sound with cntRange := Nat.zero_le 4, cntAtRead := fun _ => Nat.zero_le 3, windowLength := rfl },
    hs.build, hs.busFree, hs.scanIdle⟩

theorem cnt_le_three {s : State} (hs : s.Sound) (hne : s.cnt ≠ 4) : s.cnt.toNat ≤ 3 := by
  have hle := hs.cntRange
  have hne' : s.cnt.toNat ≠ 4 := fun h => hne (BitVec.eq_of_toNat_eq h)
  omega

theorem cnt_succ {k : BitVec 3} (h : k.toNat ≤ 3) : (k + 1).toNat = k.toNat + 1 := by
  rw [BitVec.toNat_add]
  exact Nat.mod_eq_of_lt (by simp; omega)

/-- A completed digit is counted, and its iteration is over (45_session_controller.md R218). -/
theorem advance_calm {s : State} (hs : Calm s) (hd : s.scPhase.inDigit = true) :
    Calm (setSc .check (advanceCounts s)) := by
  have hcnt := hs.sound.cntAtRead hd
  have hsucc := cnt_succ hcnt
  have hlength := hs.sound.windowLength
  refine ⟨{ hs.sound with
    remRange := (Nat.sub_le _ _).trans_lt hs.sound.remRange
    cntRange := ?_
    cntAtRead := fun h => nomatch h
    windowLength := ?_ }, hs.build, hs.busFree, hs.scanIdle⟩
  · show (s.cnt + 1).toNat ≤ 4
    omega
  · show (s.window ++ [s.dig]).length = (s.cnt + 1).toNat
    rw [List.length_append, hlength, hsucc, List.length_singleton]

/-! ### The controller's operations -/

/-- An operation of the controller returns in a calm state or stops at rest. -/
def SafeTo (P : State → Prop) (r : Run) : Prop := r.Ends (fun t => Calm t ∧ P t) AtRest

theorem SafeTo.andThen {P P' : State → Prop} {r : Run} {f : State → Run} (h : SafeTo P r)
    (hf : ∀ t, Calm t → P t → SafeTo P' (f t)) : SafeTo P' (r.andThen f) :=
  Run.Ends.andThen h fun t ht => hf t ht.1 ht.2

theorem SafeTo.mono {P P' : State → Prop} {r : Run} (h : SafeTo P r) (hp : ∀ t, P t → P' t) : SafeTo P' r :=
  Run.Ends.mono h (fun t ht => ⟨ht.1, hp t ht.2⟩) fun _ => id

/-- A phase of the controller, one component's operation. -/
theorem Safe.to {s : State} {r : Run} (h : Safe s r) : SafeTo (fun t => t.scPhase = s.scPhase) r := h

theorem displayOff_safe (c : Chan) {s : State} (hs : Calm s) : Safe s (displayOff c s) :=
  (writeCommand_works c _ s).safe hs

theorem startSession_safe {s : State} (hs : Calm s) : SafeTo (fun _ => True) (startSession s) := by
  have hinit : ∀ (c : Chan) (ph : ScPhase) (t : State), Calm t → ph.inDigit = false →
      SafeTo (fun _ => True) (initDisplay c (setSc ph t)) := fun c ph t ht hph =>
    ((initDisplay_works c _).safe (ht.setSc fun h => by rw [hph] at h; cases h)).to.mono fun _ _ => trivial
  refine ((hinit .ch1 .init1 s hs rfl).andThen fun t ht _ => hinit .ch2 .init2 t ht rfl).andThen fun t ht _ => ?_
  exact ⟨ht.setSc (fun h => nomatch h), trivial⟩

theorem windowSettle_safe {s : State} (hs : Calm s) : SafeTo (fun t => t.cnt = 0) (windowSettle s) := by
  have hcalm := emptyWindow_calm hs
  refine sleep_ends .player (emptyWindow s) _ (fun k hk => ⟨?_, rfl⟩) fun _ ht => ht.atRest hcalm
  exact Played.calm ⟨hk, id⟩ hcalm.sound.playerIdle hcalm

theorem windowBoundary_safe {s : State} (hs : Calm s) : SafeTo (fun t => t.cnt.toNat ≤ 3) (windowBoundary s) := by
  unfold windowBoundary
  split
  · have hclear : ∀ (c : Chan) (ph : ScPhase) (t : State), Calm t → ph.inDigit = false →
        SafeTo (fun _ => True) (clearDisplay c (setSc ph t)) := fun c ph t ht hph =>
      ((clearDisplay_works c _).safe (ht.setSc fun h => by rw [hph] at h; cases h)).to.mono fun _ _ => trivial
    refine ((hclear .ch1 .wclr1 s hs rfl).andThen fun t ht _ => hclear .ch2 .wclr2 t ht rfl).andThen fun t ht _ => ?_
    have hsettle := windowSettle_safe (ht.setSc (ph := .wsettle) fun h => nomatch h)
    exact hsettle.mono fun u hu => by rw [hu]; exact Nat.zero_le 3
  · next hne => exact ⟨hs, cnt_le_three hs.sound hne⟩

/-- The controller has a digit in progress. -/
def State.InDigit (s : State) : Prop := s.scPhase.inDigit = true

/-- A phase of an iteration with a digit in progress, before and after. -/
theorem digitPhase_safe {s : State} {r : Run} {ph : ScPhase} (hph : ph.inDigit = true) (hs : Calm s) (hd : s.InDigit)
    (h : Calm (setSc ph s) → Safe (setSc ph s) r) : SafeTo State.InDigit r :=
  (h (hs.setSc_inDigit hd ph)).to.mono fun t ht => by rw [State.InDigit, ht]; exact hph

theorem readPhase_safe {s : State} (hs : Calm s) (hcnt : s.cnt.toNat ≤ 3) : SafeTo State.InDigit (readPhase s) := by
  have hread := hs.setSc (ph := .read) fun _ => hcnt
  refine ((readDigit_scans _).safe hread).to.andThen fun t ht hph => ⟨latchDigit_calm ht, ?_⟩
  rw [State.InDigit, latchDigit, hph]
  rfl

theorem cipherPhase_safe {s : State} (hs : Calm s) (hd : s.InDigit) :
    SafeTo State.InDigit (.done (cipherPhase s)) :=
  have hencrypted := latchEncrypted_calm (encryptOp_calm s.dig s.pos (hs.setSc_inDigit hd .cipher))
  have hcalm : Calm (cipherPhase s) := latchMorse_calm (encodeOp_calm _ hencrypted)
  ⟨hcalm, rfl⟩

theorem positionPhase_safe {s : State} (hs : Calm s) (hd : s.InDigit) : SafeTo State.InDigit (positionPhase s) := by
  refine digitPhase_safe (ph := .ch1pos) rfl hs hd fun h => ?_
  unfold positionPhase
  dsimp only
  split
  · exact (clearDisplay_works .ch1 _).safe h
  · exact (moveCursor_works .ch1 _ _).safe h

theorem writeMarks_safe (n i : Nat) {s : State} (hs : Calm s) (hd : s.InDigit) :
    SafeTo State.InDigit (writeMarks n i s) := by
  induction n generalizing i s with
  | zero => exact ⟨hs, hd⟩
  | succ n ih =>
    have hmark := (writeChar_works .ch2 (markChar (markAt s.mw i)) _).safe (setScMi_calm hs (BitVec.ofNat 3 i))
    refine hmark.to.andThen fun t ht hph => ih (i + 1) ht ?_
    rw [State.InDigit, hph]
    exact hd

theorem marksPhase_safe {s : State} (hs : Calm s) (hd : s.InDigit) : SafeTo State.InDigit (marksPhase s) :=
  writeMarks_safe _ 0 (hs.setSc_inDigit hd .ch2mrk) rfl

theorem iterateSession_safe {s : State} (hs : Calm s) : SafeTo (fun _ => True) (iterateSession s) := by
  refine (((((((((windowBoundary_safe hs).andThen fun t ht hcnt => readPhase_safe ht hcnt).andThen
    fun t ht hd => cipherPhase_safe ht hd).andThen
    fun t ht hd => positionPhase_safe ht hd).andThen
    fun t ht hd => digitPhase_safe (ph := .ch1wr) rfl ht hd (writeChar_works .ch1 _ _).safe).andThen
    fun t ht hd => digitPhase_safe (ph := .ch2clr) rfl ht hd (clearDisplay_works .ch2 _).safe).andThen
    fun t ht hd => digitPhase_safe (ph := .ch2dig) rfl ht hd (writeChar_works .ch2 _ _).safe).andThen
    fun t ht hd => marksPhase_safe ht hd).andThen
    fun t ht hd => digitPhase_safe (ph := .play) rfl ht hd (playWord_safe _)).andThen fun t ht hd => ?_
  exact ⟨advance_calm (ht.setSc_inDigit hd .adv) rfl, trivial⟩

/-- The run's end: `st_done`, `Done`, `SC_HALT` (45_session_controller.md R221). -/
theorem haltDone_safe {s : State} (hs : Calm s) : SafeTo (fun _ => True) (haltDone s) := by
  have hend : ∀ k, Calm { ({ s with stDone := true } : State).emit .done with rstIn := k, scPhase := .halt } := fun _ =>
    ⟨{ hs.sound with cntAtRead := fun h => nomatch h }, hs.build, hs.busFree, hs.scanIdle⟩
  refine Run.Ends.andThen (P := fun t => Calm t.halt) (resetPoint_ends _ (fun k _ => hend k) fun hr => ?_) fun t ht =>
    ⟨ht, trivial⟩
  exact WasReset.atRest (s := s) ⟨hr, rfl, rfl, rfl, rfl, id⟩ hs

theorem terminateSession_safe {s : State} (hs : Calm s) : SafeTo (fun _ => True) (terminateSession s) := by
  have hoff : ∀ (c : Chan) (ph : ScPhase) (t : State), Calm t → ph.inDigit = false →
      SafeTo (fun _ => True) (displayOff c (setSc ph t)) := fun c _ _ ht hph =>
    (displayOff_safe c (ht.setSc fun h => by rw [hph] at h; cases h)).to.mono fun _ _ => trivial
  exact ((hoff .ch1 .off1 s hs rfl).andThen fun t ht _ => hoff .ch2 .off2 t ht rfl).andThen
    fun t ht _ => haltDone_safe ht

theorem iterations_safe (n : Nat) {s : State} (hs : Calm s) : SafeTo (fun _ => True) (iterations n s) := by
  induction n generalizing s with
  | zero => exact ⟨hs, trivial⟩
  | succ n ih =>
    unfold iterations
    split
    · exact ⟨hs, trivial⟩
    · exact (iterateSession_safe hs).andThen fun _ ht _ => ih ht

theorem runSession_safe {s : State} (hs : Calm s) : SafeTo (fun _ => True) (runSession s) :=
  ((startSession_safe hs).andThen fun t ht _ => iterations_safe t.rem ht).andThen fun _ ht _ =>
    terminateSession_safe ht

/-! ### Every instruction, every phase of the walk, every step -/

/-- The operations of the session controller, which set its phase (45_session_controller.md R205). -/
def controllerOp : Instr → Bool
  | .scStart | .scIterate | .scTerminate | .scRun => true
  | _ => false

theorem ifUninitialised_next {c : Chan} {s t : State} {r : Host.Outcome State Fault Refusal}
    (h : ifUninitialised c s r = .next t) : r = .next t := by
  unfold ifUninitialised at h
  split at h
  · cases h
  · split at h
    · cases h
    · exact h

theorem ifInitialised_next {c : Chan} {s t : State} {r : Run} (h : ifInitialised c s r = .next t) :
    r.result = .next t := by
  unfold ifInitialised at h
  split at h
  · exact h
  · cases h

theorem ifSessionOpen_next {s t : State} {r : Run} (h : ifSessionOpen s r = .next t) : r.result = .next t := by
  unfold ifSessionOpen at h
  split at h
  · exact ifInitialised_next h
  · cases h

theorem execLmpPlay_next {w : Byte} {s t : State} (h : execLmpPlay w s = .next t) :
    (playWord w s).result = .next t := by
  unfold execLmpPlay at h
  split at h
  · exact h
  · cases h

/-- From a calm state every instruction returns in a calm state or stops at rest; only the controller's own change its
phase. -/
theorem exec_calm {i : Instr} {s t : State} (hs : Calm s) (h : exec i s = .next t) :
    (Calm t ∧ (controllerOp i = false → t.scPhase = s.scPhase)) ∨ AtRest t := by
  have component : ∀ {r : Run}, Safe s r → r.result = .next t →
      (Calm t ∧ (controllerOp i = false → t.scPhase = s.scPhase)) ∨ AtRest t := fun hr ht =>
    (Run.Ends.result hr ht).imp_left fun hu => ⟨hu.1, fun _ => hu.2⟩
  have controller : ∀ {r : Run}, controllerOp i = true → SafeTo (fun _ => True) r → r.result = .next t →
      (Calm t ∧ (controllerOp i = false → t.scPhase = s.scPhase)) ∨ AtRest t := fun hi hr ht =>
    (Run.Ends.result hr ht).imp_left fun hu => ⟨hu.1, fun hn => by rw [hi] at hn; cases hn⟩
  rcases hd : displayChan i with _ | c
  · cases i with
    | ksReaddigit => exact component ((readDigit_scans s).safe hs) h
    | ceEncrypt d q => cases h; exact .inl ⟨encryptOp_calm d q hs, fun _ => rfl⟩
    | meEncode d => cases h; exact .inl ⟨encodeOp_calm d hs, fun _ => rfl⟩
    | lmpPlay w => exact component (playWord_safe w hs) (execLmpPlay_next h)
    | scStart => exact controller rfl (startSession_safe hs) (ifUninitialised_next (ifUninitialised_next h))
    | scIterate => exact controller rfl (iterateSession_safe hs) (ifSessionOpen_next h)
    | scTerminate => exact controller rfl (terminateSession_safe hs) (ifSessionOpen_next h)
    | scRun => exact controller rfl (runSession_safe hs) (ifUninitialised_next (ifUninitialised_next h))
    | mwDigit0 | mwDigit1 | mwDigit2 | mwDigit3 | mwDigit4 | mwDigit5 | mwDigit6 | mwDigit7 | mwDigit8 | mwDigit9
    | mwEmpty => cases h; exact .inl ⟨encodeOp_calm _ hs, fun _ => rfl⟩
    | kpSlot0Key0 | kpSlot1Key1 | kpSlot2Key2 | kpSlot3Key3 | kpSlot4Key4 | kpSlot5Key5 | kpSlot6Key6 | kpSlot7Key7
    | kpSlot8Key8 | kpSlot9Key9 | kpSlot10KeyA | kpSlot11KeyB | kpSlot12KeyC | kpSlot13KeyD | kpSlot14KeyStar
    | kpSlot15KeyHash => exact component (slotPattern_safe _ hs) h
    | _ => cases hd
  · rcases exec_display hd (hs.sound.channelsIdle c (hs.busFree c)) h with ht | ht
    · exact .inl ⟨ht.calm hs, fun _ => ht.keeps.read (·.scPhase) rfl⟩
    · exact .inr (ht.atRest hs)

/-- What follows a returned operation is performed from a calm state; a stopped operation is followed by nothing. -/
theorem performAfter_safe {P : State → Prop} {r : Host.Outcome State Fault Refusal} {f : State → Run} {t : State}
    (h : performAfter r f = .next t) (hr : ∀ u, r = .next u → (Calm u ∧ P u) ∨ AtRest u)
    (hf : ∀ u, Calm u → P u → SafeTo (fun _ => True) (f u)) : t.Sound := by
  cases r with
  | next u =>
    simp only [performAfter] at h
    rcases hr u rfl with ⟨hu, hp⟩ | hu
    · split at h
      · rcases Run.Ends.result (hf u hu hp) h with ht | ht
        · exact ht.1.sound
        · exact ht.sound
      · cases h; exact hu.sound
    · rw [hu.busy] at h
      cases h
      exact hu.sound
  | fault e => cases h
  | refused e => cases h

theorem whenReturned_sound {P : State → Prop} {r : Host.Outcome State Fault Refusal} {f : State → State} {t : State}
    (h : whenReturned r f = .next t) (hr : ∀ u, r = .next u → (Calm u ∧ P u) ∨ AtRest u)
    (hf : ∀ u, Calm u → P u → Calm (f u)) : t.Sound :=
  performAfter_safe h hr fun u hu hp => ⟨hf u hu hp, trivial⟩

/-- A phase of the walk that performs a component's operation and then changes the controller's registers by `f`. -/
theorem componentPhase_sound {i : Instr} (hi : controllerOp i = false) {s t : State} (hs : Calm s) {f : State → State}
    (h : whenReturned (exec i s) f = .next t) (hf : ∀ u, Calm u → u.scPhase = s.scPhase → Calm (f u)) : t.Sound :=
  whenReturned_sound h (fun _ hu => (exec_calm hs hu).imp_left fun hc => ⟨hc.1, hc.2 hi⟩) hf

/-- The first half of `SC_CIPHER` cannot stop. -/
theorem walkCipher_calm {s t : State} (hs : Calm s) (h : walkCipher s = .next t) :
    Calm t ∧ t.scPhase = s.scPhase := by
  have hop := encryptOp_calm s.dig s.pos hs
  simp only [walkCipher, exec, execCeEncrypt, whenReturned, performAfter] at h
  split at h
  · cases h; exact ⟨latchEncrypted_calm hop, rfl⟩
  · cases h; exact ⟨hop, rfl⟩

theorem checkPhase_calm {s : State} (hs : Calm s) : Calm (checkPhase s) := by
  unfold checkPhase
  split
  · exact hs.setSc fun h => nomatch h
  · split
    · exact hs.setSc fun h => nomatch h
    · next hne => exact hs.setSc fun _ => cnt_le_three hs.sound hne

theorem leaveRead_calm {s : State} (hs : Calm s) (hd : s.InDigit) : Calm (leaveRead s) :=
  (latchDigit_calm hs).setSc_inDigit hd .cipher

theorem walkMark_sound {s t : State} (hs : Calm s) (hp : s.scPhase = .ch2mrk) (h : walkMark s = .next t) :
    t.Sound := by
  unfold walkMark at h
  split at h
  · refine componentPhase_sound rfl hs h fun u hu hph => ?_
    have hd : u.InDigit := by rw [State.InDigit, hph, hp]; rfl
    unfold afterMark
    split
    · exact setScMi_calm hu _
    · exact hu.setSc_inDigit hd .play
  · cases h
    exact (hs.setSc_inDigit (by rw [hp]; rfl) .play).sound

/-- Every phase of the walk keeps the invariants (45_session_controller.md R206). -/
theorem walk_sound {s t : State} (hs : Calm s) (h : walk s = .next t) : t.Sound := by
  have outside : ∀ (ph : ScPhase), ph.inDigit = false → ∀ u, Calm u → Calm (setSc ph u) := fun ph hph u hu =>
    hu.setSc fun hd => by rw [hph] at hd; cases hd
  have within : s.InDigit → ∀ (ph : ScPhase) (u : State), Calm u → u.scPhase = s.scPhase → Calm (setSc ph u) :=
    fun hd ph u hu hph => hu.setSc_inDigit (by rw [hph]; exact hd) ph
  unfold walk at h
  generalize hp : s.scPhase = phase at h
  cases phase with
  | reset => cases h; exact (outside .init1 rfl s hs).sound
  | init1 => exact componentPhase_sound rfl hs h fun u hu _ => outside .init2 rfl u hu
  | init2 => exact componentPhase_sound rfl hs h fun u hu _ => outside .check rfl u hu
  | check => cases h; exact (checkPhase_calm hs).sound
  | wclr1 => exact componentPhase_sound rfl hs h fun u hu _ => outside .wclr2 rfl u hu
  | wclr2 => exact componentPhase_sound rfl hs h fun u hu _ => outside .wsettle rfl u hu
  | wsettle =>
    refine whenReturned_sound h (fun u hu => Run.Ends.result (windowSettle_safe hs) hu) fun u hu hcnt => ?_
    exact hu.setSc fun _ => by rw [hcnt]; exact Nat.zero_le 3
  | read =>
    exact componentPhase_sound rfl hs h fun u hu hph => leaveRead_calm hu (by rw [State.InDigit, hph, hp]; rfl)
  | cipher =>
    cases hc : walkCipher s with
    | next u =>
      rw [hc] at h
      obtain ⟨hu, hph⟩ := walkCipher_calm hs hc
      refine componentPhase_sound rfl hu h fun v hv hph' => (latchMorse_calm hv).setSc_inDigit ?_ .ch1pos
      show v.InDigit
      rw [State.InDigit, hph', hph, hp]
      rfl
    | fault e => rw [hc] at h; cases h
    | refused e => rw [hc] at h; cases h
  | ch1pos =>
    have hi : controllerOp (positionInstr s) = false := by unfold positionInstr; split <;> rfl
    exact componentPhase_sound hi hs h (within (by rw [State.InDigit, hp]; rfl) .ch1wr)
  | ch1wr => exact componentPhase_sound rfl hs h (within (by rw [State.InDigit, hp]; rfl) .ch2clr)
  | ch2clr => exact componentPhase_sound rfl hs h (within (by rw [State.InDigit, hp]; rfl) .ch2dig)
  | ch2dig =>
    exact componentPhase_sound rfl hs h fun u hu =>
      within (by rw [State.InDigit, hp]; rfl) .ch2mrk _ (setScMi_calm hu 0)
  | ch2mrk => exact walkMark_sound hs hp h
  | play => exact componentPhase_sound rfl hs h (within (by rw [State.InDigit, hp]; rfl) .adv)
  | adv => cases h; exact (advance_calm hs (by rw [hp]; rfl)).sound
  | off1 => exact componentPhase_sound rfl hs h fun u hu _ => outside .off2 rfl u hu
  | off2 =>
    exact performAfter_safe (P := fun _ => True) h
      (fun _ hu => (exec_calm hs hu).imp_left fun hc => ⟨hc.1, trivial⟩) fun u hu _ => haltDone_safe hu
  | halt => cases h; exact hs.sound

/-- A scan that goes on keeps the invariants, the controller's taking of the digit included. -/
theorem scanOn_sound {s t : State} (hwf : s.cfg.wf = true) (hs : s.Sound) (hbus : ∀ c, (s.drv c).busReq = .none)
    (hk : s.ksPhase ≠ .idle) (h : scanOn s = .next t) : t.Sound := by
  have hscan := resumeScan_scans s hk
  unfold scanOn at h
  cases hr : resumeScan s with
  | done u =>
    rw [hr] at h hscan
    have hu : Calm u := Delivered.calm hscan hwf hs hbus
    cases h
    split
    · next hph => exact (leaveRead_calm hu (by rw [State.InDigit, hph]; rfl)).sound
    · exact hu.sound
  | stop u =>
    rw [hr] at h hscan
    cases h
    exact (ScanStopped.atRest hscan hwf hs hbus).sound

theorem performSlot_sound {s t : State} {c : CallSlot} (hs : Calm s) (h : performSlot c s = .next t) : t.Sound := by
  unfold performSlot at h
  split at h
  · have hempty : Calm { s with slot := none } := ⟨{ hs.sound with }, hs.build, hs.busFree, hs.scanIdle⟩
    rcases exec_calm hempty h with ht | ht
    · exact ht.1.sound
    · exact ht.sound
  · cases h

/-- A step of a build the spec allows: only such a build has one. -/
theorem step_build {s t : State} (h : step s = .next t) : s.cfg.wf = true := by
  by_contra hwf
  rw [step_of_not_wf (Bool.eq_false_iff.2 hwf)] at h
  cases h

/-- While `rst` is asserted a step resets the block. -/
theorem step_of_rst {s : State} (hwf : s.cfg.wf = true) (hrst : s.rst = true) : step s = .next (resetBlock s) := by
  simp [step, hwf, hrst]

/-- Settles O52: by the cases of a step, each of which keeps the invariants. -/
theorem soundIsKept : Obligations.SoundIsKept := by
  intro s t hs h
  have hwf := step_build h
  cases hrst : s.rst with
  | true =>
    rw [step_of_rst hwf hrst] at h
    cases h
    exact sound_of_resetBlock hwf rfl rfl hs.canonical
  | false =>
    rcases step_cases hrst h with ⟨-, rfl⟩ | ⟨-, hstalled, hscanning, hscan⟩ | ⟨ho, c, -, hslot⟩ | ⟨ho, -, hwalk⟩
    · exact hs
    · have hk : s.ksPhase ≠ .idle := fun hk => by rw [(not_scanning_iff s).2 hk] at hscanning; cases hscanning
      exact scanOn_sound hwf hs ((not_stalled_iff s).1 hstalled) hk hscan
    · exact performSlot_sound (.of_open ho hs) hslot
    · exact walk_sound (.of_open ho hs) hwalk

end Sys2Proof.Machine
end

section
/-! The run from reset with nothing presented and no `rst` in it (45_session_controller.md R206): each phase of the walk
performs its operation, which is neither refused nor cut off, and the counts of the run follow (10_state.md R26,
R40). -/

namespace Sys2Proof.Machine

open Sys2Proof.Config

/-! ### The invariants at reset -/

/-- The run begins in order in every build the spec allows whose buses have not been started
(70_reset_and_hazards.md R266, R268). -/
theorem inRun_initial {p : Params} {env : Environment} (hwf : p.wf = true) (hrst : env.rst = false)
    (hrstIn : env.rstIn = none) (h1 : env.line1.started = false) (h2 : env.line2.started = false) :
    (State.initial p env).InRun where
  build := hwf
  released := hrst
  undisturbed := hrstIn
  nothingPresented := rfl
  scanOnlyInRead := fun h => nomatch h
  fresh1 := fun _ => ⟨rfl, h1, rfl, h2⟩
  fresh2 := fun h => nomatch h.1
  initialised := fun h => absurd rfl h
  wordPlayable := fun h => nomatch h
  total := fun _ => Nat.zero_add _
  remaining := fun h => nomatch h
  cntBound := Nat.zero_le 4
  cntAtBoundary := fun h => nomatch h
  windowPosition := fun _ => rfl
  ended := fun h => nomatch h
  doneHalts := fun h => nomatch h

theorem default_wf : Config.default.wf = true := by decide

/-- Settles O2: the reset state is that of a build the spec allows, with an empty trace, in the initial environment. -/
theorem resetMeetsInvariants : Obligations.ResetMeetsInvariants := by
  refine ⟨sound_of_resetBlock default_wf rfl rfl fun c => by cases c <;> rfl,
    inRun_initial default_wf rfl rfl rfl rfl, fun c => ⟨rfl, fun _ => ⟨rfl, ?_⟩, fun h => ?_⟩, ⟨rfl, fun _ _ => rfl⟩,
    fun _ _ => inRun_initial⟩
  · cases c <;> rfl
  · cases c <;> cases h

/-! ### The part of the invariant that lies in the controller's registers -/

/-- What `State.InRun` says of the parameters, the inputs and the controller's registers. -/
structure State.Counts (s : State) : Prop where
  build : s.cfg.wf = true
  released : s.rst = false
  undisturbed : s.rstIn = none
  nothingPresented : s.slot = none
  wordPlayable : s.scPhase.counted = true → markCount s.mw = 5
  total : s.scPhase ≠ .halt → s.pos + s.rem = s.cfg.iterCount + (if s.scPhase.counted then 1 else 0)
  remaining : s.scPhase.inIteration = true → s.rem ≠ 0
  cntBound : s.cnt.toNat ≤ if s.scPhase.inDigit then 3 else 4
  cntAtBoundary : s.scPhase = .wclr1 ∨ s.scPhase = .wclr2 ∨ s.scPhase = .wsettle → s.cnt = 4
  windowPosition : s.scPhase ≠ .halt → s.pos % 4 = (s.cnt.toNat + (if s.scPhase.counted then 1 else 0)) % 4
  ended : s.scPhase = .off1 ∨ s.scPhase = .off2 ∨ s.stDone = true → s.rem = 0 ∧ s.pos = s.cfg.iterCount
  doneHalts : s.stDone = true → s.scPhase = .halt

theorem State.InRun.counts {s : State} (h : s.InRun) : s.Counts :=
  ⟨h.build, h.released, h.undisturbed, h.nothingPresented, h.wordPlayable, h.total, h.remaining, h.cntBound,
    h.cntAtBoundary, h.windowPosition, h.ended, h.doneHalts⟩

theorem State.Counts.inRun {s : State} (h : s.Counts) (hscan : s.scanning = true → s.scPhase = .read)
    (fresh1 : s.scPhase = .reset ∨ (s.scPhase = .init1 ∧ s.stalled = false) →
      s.drv1.inited = false ∧ s.line1.started = false ∧ s.drv2.inited = false ∧ s.line2.started = false)
    (fresh2 : s.scPhase = .init2 ∧ s.stalled = false →
      s.drv1.inited = true ∧ s.drv2.inited = false ∧ s.line2.started = false)
    (ready : s.scPhase ≠ .reset → s.scPhase ≠ .init1 → s.scPhase ≠ .init2 → s.scPhase ≠ .halt →
      s.drv1.inited = true ∧ s.drv2.inited = true) : s.InRun :=
  ⟨h.build, h.released, h.undisturbed, h.nothingPresented, hscan, fresh1, fresh2, ready, h.wordPlayable, h.total,
    h.remaining, h.cntBound, h.cntAtBoundary, h.windowPosition, h.ended, h.doneHalts⟩

/-- The controller is at its initialisation: its displays are not both initialised yet (45_session_controller.md
R207). -/
def ScPhase.initialising : ScPhase → Bool
  | .reset | .init1 | .init2 => true
  | _ => false

/-- Past its initialisation, with nothing left unfinished but perhaps its own read. -/
theorem State.Counts.inRun_ready {s : State} (h : s.Counts) (hscan : s.scanning = true → s.scPhase = .read)
    (hph : s.scPhase.initialising = false) (hready : ∀ c, (s.drv c).inited = true) : s.InRun := by
  have hne : ∀ ph : ScPhase, ph.initialising = true → s.scPhase ≠ ph := fun ph hi he => by
    rw [he, hi] at hph; cases hph
  refine h.inRun hscan (fun hp => ?_) (fun hp => absurd hp.1 (hne _ rfl)) fun _ _ _ _ => ⟨hready .ch1, hready .ch2⟩
  rcases hp with hp | ⟨hp, -⟩
  · exact absurd hp (hne _ rfl)
  · exact absurd hp (hne _ rfl)

/-- No component works on these registers. -/
theorem State.Counts.of_keeps {x : Component} {s t : State} (h : s.Counts) (k : Keeps x s t) : t.Counts := by
  have hcfg : t.cfg = s.cfg := k.read State.cfg rfl
  have hphase : t.scPhase = s.scPhase := k.read (·.scPhase) rfl
  have hmw : t.mw = s.mw := k.read (·.mw) rfl
  have hcnt : t.cnt = s.cnt := k.read (·.cnt) rfl
  have hpos : t.pos = s.pos := k.read (·.pos) rfl
  have hrem : t.rem = s.rem := k.read (·.rem) rfl
  have hdone : t.stDone = s.stDone := k.read (·.stDone) rfl
  exact {
    build := by rw [hcfg]; exact h.build
    released := (k.read (·.rst) rfl).trans h.released
    undisturbed := by
      have hnone := k.rstIn
      rw [h.undisturbed] at hnone
      exact Option.isSome_eq_false_iff.1 hnone |> Option.isNone_iff_eq_none.1
    nothingPresented := (k.read State.slot rfl).trans h.nothingPresented
    wordPlayable := by rw [hphase, hmw]; exact h.wordPlayable
    total := by rw [hphase, hpos, hrem, hcfg]; exact h.total
    remaining := by rw [hphase, hrem]; exact h.remaining
    cntBound := by rw [hphase, hcnt]; exact h.cntBound
    cntAtBoundary := by rw [hphase, hcnt]; exact h.cntAtBoundary
    windowPosition := by rw [hphase, hpos, hcnt]; exact h.windowPosition
    ended := by rw [hphase, hdone, hrem, hpos, hcfg]; exact h.ended
    doneHalts := by rw [hdone, hphase]; exact h.doneHalts }

theorem State.Counts.cnt_le {s : State} (h : s.Counts) : s.cnt.toNat ≤ 4 := by
  have hb := h.cntBound
  split at hb <;> omega

theorem State.Counts.not_done {s : State} (h : s.Counts) (hph : s.scPhase ≠ .halt) : s.stDone ≠ true :=
  fun hd => hph (h.doneHalts hd)

/-- The walk goes from one phase to another between which nothing is counted. -/
theorem State.Counts.setSc {s : State} (h : s.Counts) {q : ScPhase} (hph : s.scPhase ≠ .halt)
    (hcounted : q.counted = s.scPhase.counted) (hrem : q.inIteration = true → s.rem ≠ 0)
    (hcnt : q.inDigit = true → s.cnt.toNat ≤ 3) (hfull : q = .wclr1 ∨ q = .wclr2 ∨ q = .wsettle → s.cnt = 4)
    (hend : q = .off1 ∨ q = .off2 → s.rem = 0) : (Machine.setSc q s).Counts where
  build := h.build
  released := h.released
  undisturbed := h.undisturbed
  nothingPresented := h.nothingPresented
  wordPlayable := fun hq => h.wordPlayable (hcounted ▸ hq)
  total := fun _ => by
    show s.pos + s.rem = s.cfg.iterCount + if q.counted then 1 else 0
    rw [hcounted]; exact h.total hph
  remaining := hrem
  cntBound := by
    show s.cnt.toNat ≤ if q.inDigit then 3 else 4
    split
    · next hq => exact hcnt hq
    · exact h.cnt_le
  cntAtBoundary := hfull
  windowPosition := fun _ => by
    show s.pos % 4 = (s.cnt.toNat + if q.counted then 1 else 0) % 4
    rw [hcounted]; exact h.windowPosition hph
  ended := fun hq => by
    have hoff : q = .off1 ∨ q = .off2 := by
      rcases hq with hq | hq | hq
      · exact .inl hq
      · exact .inr hq
      · exact absurd hq (h.not_done hph)
    have hrem0 : s.rem = 0 := hend hoff
    have htotal := h.total hph
    have hnot : s.scPhase.counted = false := by rcases hoff with rfl | rfl <;> exact hcounted.symm
    rw [hnot, hrem0] at htotal
    exact ⟨hrem0, by simpa using htotal⟩
  doneHalts := fun hd => absurd hd (h.not_done hph)

/-- The same inside an iteration, between two phases with a digit in progress. -/
theorem State.Counts.setSc_inDigit {s : State} (h : s.Counts) {p q : ScPhase} (hp : s.scPhase = p)
    (hcounted : q.counted = p.counted) (hdp : p.inDigit = true) (hdq : q.inDigit = true) :
    (Machine.setSc q s).Counts := by
  subst hp
  have hbound := h.cntBound
  rw [hdp] at hbound
  have hiter : s.scPhase.inIteration = true := by revert hdp; cases s.scPhase <;> decide
  refine h.setSc (fun hp => ?_) hcounted (fun _ => h.remaining hiter) (fun _ => hbound) (fun hq => ?_) fun hq => ?_
  · rw [hp] at hdp; cases hdp
  · rcases hq with rfl | rfl | rfl <;> cases hdq
  · rcases hq with rfl | rfl <;> cases hdq

/-! ### How a phase's operation ends in a run -/

theorem free_iff (s : State) :
    s.free = true ↔ s.rst = false ∧ (∀ c, (s.drv c).busReq = .none) ∧ s.ksPhase = .idle ∧ s.scPhase ≠ .halt := by
  rw [← not_stalled_iff, ← not_scanning_iff]
  simp [State.free, State.halted, and_assoc]

theorem not_stalled_of_free {s : State} (h : s.free = true) : s.stalled = false := by
  obtain ⟨-, hbus, -, -⟩ := (free_iff s).1 h
  exact (not_stalled_iff s).2 hbus

theorem not_scanning_of_free {s : State} (h : s.free = true) : s.scanning = false := by
  obtain ⟨-, -, hscan, -⟩ := (free_iff s).1 h
  exact (not_scanning_iff s).2 hscan

theorem not_halt_of_free {s : State} (h : s.free = true) : s.scPhase ≠ .halt := by
  obtain ⟨-, -, -, hhalt⟩ := (free_iff s).1 h
  exact hhalt

/-- The operation has returned: the block is free, the controller's registers are as they were, and what was initialised
still is. -/
structure Returned (s t : State) : Prop where
  free : t.free = true
  counts : t.Counts
  phase : t.scPhase = s.scPhase
  ready : ∀ c, (s.drv c).inited = true → (t.drv c).inited = true

/-- The operation has not returned, and the run stands where it is. -/
structure Rests (t : State) : Prop where
  busy : t.free = false
  inRun : t.InRun

theorem WasReset.not_counts {s t : State} (h : WasReset s t) : ¬ s.Counts := fun hs => by
  have hcause := h.cause
  rw [hs.undisturbed] at hcause
  cases hcause

theorem Returned.of_keeps {x : Component} {s t : State} (hs : s.Counts) (hfree : s.free = true) (k : Keeps x s t)
    (hbus : ∀ c, (t.drv c).busReq = .none) (hks : t.ksPhase = .idle)
    (hready : ∀ c, (s.drv c).inited = true → (t.drv c).inited = true) : Returned s t := by
  obtain ⟨hrst, -, -, hph⟩ := (free_iff s).1 hfree
  have hphase : t.scPhase = s.scPhase := k.read (·.scPhase) rfl
  exact ⟨(free_iff t).2 ⟨(k.read (·.rst) rfl).trans hrst, hbus, hks, hphase ▸ hph⟩, hs.of_keeps k, hphase, hready⟩

theorem ChannelWorked.inited_mono {c : Chan} {s t : State} (h : ChannelWorked c s t) (c' : Chan)
    (hi : (s.drv c').inited = true) : (t.drv c').inited = true := by
  by_cases hc : c' = c
  · subst hc; exact h.inited hi
  · rw [h.keeps.otherDrv hc]; exact hi

theorem ChannelDone.returned {c : Chan} {s t : State} (h : ChannelDone c .idle s t) (hs : s.Counts)
    (hfree : s.free = true) : Returned s t := by
  obtain ⟨-, hbus, hks, -⟩ := (free_iff s).1 hfree
  refine .of_keeps hs hfree h.keeps (fun c' => ?_) ((h.keeps.read (·.ksPhase) rfl).trans hks)
    h.toChannelWorked.inited_mono
  by_cases hc : c' = c
  · subst hc; exact h.idleBus (hbus c')
  · rw [h.keeps.otherDrv hc]; exact hbus c'

theorem ChannelBusy.inRun {c : Chan} {s t : State} (h : ChannelBusy c s t) (hs : s.InRun) (hfree : s.free = true)
    (hph : s.scPhase ≠ .reset) : t.InRun ∧ t.stalled = true := by
  obtain ⟨-, -, hks, -⟩ := (free_iff s).1 hfree
  have hstalled := stalled_of_busy h.busy
  have hphase : t.scPhase = s.scPhase := h.keeps.read (·.scPhase) rfl
  have hscan : t.scanning = false := (not_scanning_iff t).2 ((h.keeps.read (·.ksPhase) rfl).trans hks)
  refine ⟨(hs.counts.of_keeps h.keeps).inRun (fun hn => ?_) (fun hp => ?_) (fun hp => ?_) ?_, hstalled⟩
  · rw [hscan] at hn; cases hn
  · rw [hphase, hstalled] at hp
    rcases hp with hp | ⟨-, hn⟩
    · exact absurd hp hph
    · cases hn
  · rw [hstalled] at hp; cases hp.2
  · rw [hphase]
    intro h1 h2 h3 h4
    obtain ⟨hi1, hi2⟩ := hs.initialised h1 h2 h3 h4
    exact ⟨h.toChannelWorked.inited_mono .ch1 hi1, h.toChannelWorked.inited_mono .ch2 hi2⟩

/-- BusTimeout ends the run (60_exceptions.md R238). -/
theorem State.InRun.halted {s : State} (h : s.InRun) (hscan : s.scanning = false) :
    ({ s with scPhase := .halt, stBusTimeout := true } : State).InRun :=
  { h with
    scanOnlyInRead := fun hn => absurd (hn.symm.trans hscan) nofun
    fresh1 := fun hp => by rcases hp with hp | ⟨hp, -⟩ <;> cases hp
    fresh2 := fun hp => nomatch hp.1
    initialised := fun _ _ _ hn => absurd rfl hn
    wordPlayable := fun hn => nomatch hn
    total := fun hn => absurd rfl hn
    remaining := fun hn => nomatch hn
    cntBound := h.counts.cnt_le
    cntAtBoundary := fun hp => by rcases hp with hp | hp | hp <;> cases hp
    windowPosition := fun hn => absurd rfl hn
    ended := fun hp => by
      rcases hp with hp | hp | hp
      · cases hp
      · cases hp
      · exact h.ended (.inr (.inr hp))
    doneHalts := fun _ => rfl }

theorem ChannelStopped.rests {c : Chan} {s t : State} (h : ChannelStopped c s t) (hs : s.InRun) (hfree : s.free = true)
    (hph : s.scPhase ≠ .reset) : Rests t := by
  cases h with
  | reset h => exact absurd hs.counts h.not_counts
  | stalled h =>
    obtain ⟨hrun, hstalled⟩ := h.inRun hs hfree hph
    exact ⟨by simp [State.free, hstalled], hrun⟩
  | gaveUp h =>
    obtain ⟨-, -, hks, -⟩ := (free_iff s).1 hfree
    obtain ⟨hrun, -⟩ := h.inRun hs hfree hph
    exact ⟨by simp [State.free, State.halted],
      hrun.halted ((not_scanning_iff _).2 ((h.keeps.read (·.ksPhase) rfl).trans hks))⟩

/-- A phase whose operation returns with `P` goes on by `f`; one whose operation stops stays. -/
theorem whenReturned_inRun {P : State → Prop} {r : Run} {f : State → State}
    (hr : r.Ends (fun t => t.free = true ∧ P t) Rests) (hf : ∀ t, t.free = true → P t → (f t).InRun) :
    ∃ t, whenReturned r.result f = .next t ∧ t.InRun := by
  cases r with
  | done t =>
    obtain ⟨hfree, hp⟩ := hr
    exact ⟨f t, by simp [whenReturned, performAfter, hfree], hf t hfree hp⟩
  | stop t => exact ⟨t, by simp [whenReturned, performAfter, hr.busy], hr.inRun⟩

/-- A phase past the initialisation that performs an operation on a channel. -/
theorem channelPhase_inRun {c : Chan} {s : State} {r : Run} {f : State → State} (hr : WorksOn c .idle s r)
    (hs : s.InRun) (hfree : s.free = true) (hph : s.scPhase ≠ .reset)
    (hf : ∀ t, Returned s t → (f t).InRun) : ∃ t, whenReturned r.result f = .next t ∧ t.InRun :=
  whenReturned_inRun (hr.mono
    (fun _ ht => have hret := ht.returned hs.counts hfree; ⟨hret.free, hret⟩) fun _ ht => ht.rests hs hfree hph)
    fun t _ => hf t

/-- What the walk does in the phases whose operation is on an initialised channel. -/
theorem ifInitialised_ready {c : Chan} {s : State} (h : (s.drv c).inited = true) (r : Run) :
    ifInitialised c s r = r.result := by simp [ifInitialised, h]

theorem ifUninitialised_fresh {c : Chan} {s : State} (hi : (s.drv c).inited = false) (hs : (s.line c).started = false)
    (r : Host.Outcome State Fault Refusal) : ifUninitialised c s r = r := by simp [ifUninitialised, hi, hs]

theorem State.InRun.ready {s : State} (h : s.InRun) (hi : s.scPhase.initialising = false) (hh : s.scPhase ≠ .halt)
    (c : Chan) : (s.drv c).inited = true := by
  have hne : ∀ ph : ScPhase, ph.initialising = true → s.scPhase ≠ ph := fun ph hp he => by
    rw [he, hp] at hi; cases hi
  obtain ⟨h1, h2⟩ := h.initialised (hne _ rfl) (hne _ rfl) (hne _ rfl) hh
  cases c
  exacts [h1, h2]

theorem Returned.not_scanning {s t : State} (h : Returned s t) : t.scanning = false :=
  not_scanning_of_free h.free

/-! ### The phases -/

theorem Returned.setSc {s t : State} (h : Returned s t) {q : ScPhase} (hq : q.initialising = false)
    (hready : ∀ c, (t.drv c).inited = true) (hcounts : (Machine.setSc q t).Counts) : (Machine.setSc q t).InRun :=
  hcounts.inRun_ready (fun hn => absurd (hn.symm.trans h.not_scanning) nofun) hq hready

theorem ScPhase.inDigit_running (ph : ScPhase) :
    ph.inDigit = true → ph.initialising = false ∧ ph ≠ .halt ∧ ph ≠ .reset := by cases ph <;> decide

/-- A phase with a digit in progress has returned, and the next begins. -/
theorem Returned.setSc_inDigit {s t : State} (h : Returned s t) (hs : s.InRun) {p q : ScPhase} (hp : s.scPhase = p)
    (hcounted : q.counted = p.counted) (hdp : p.inDigit = true) (hdq : q.inDigit = true) :
    (Machine.setSc q t).InRun := by
  obtain ⟨hi, hh, -⟩ := p.inDigit_running hdp
  obtain ⟨hiq, -, -⟩ := q.inDigit_running hdq
  have hready := hs.ready (hp ▸ hi) (hp ▸ hh)
  exact h.setSc hiq (fun c => h.ready c (hready c))
    (h.counts.setSc_inDigit (h.phase.trans hp) hcounted hdp hdq)

/-- A phase of the initialisation: DCD.INITIALIZE on `c` is performed, and returns with the channel initialised and the
other untouched. -/
theorem initPhase_inRun {c : Chan} {s : State} {f : State → State} (hs : s.InRun) (hfree : s.free = true)
    (hph : s.scPhase ≠ .reset)
    (hf : ∀ t, Returned s t → (t.drv c).inited = true → (∀ c', c' ≠ c → t.drv c' = s.drv c' ∧ t.line c' = s.line c') →
      (f t).InRun) : ∃ t, whenReturned (initDisplay c s).result f = .next t ∧ t.InRun := by
  have hworks := initDisplay_works c s
  have hinit : ∀ t, initDisplay c s = .done t → (t.drv c).inited = true := fun _ => initDisplay_inited
  revert hworks hinit
  generalize initDisplay c s = r
  intro hworks hinit
  refine whenReturned_inRun (P := fun t => ChannelDone c .idle s t ∧ (t.drv c).inited = true) ?_ ?_
  · cases r with
    | done t => exact ⟨(ChannelDone.returned hworks hs.counts hfree).free, hworks, hinit t rfl⟩
    | stop t => exact ChannelStopped.rests hworks hs hfree hph
  · rintro t - ⟨hdone, hi⟩
    exact hf t (hdone.returned hs.counts hfree) hi fun c' hc => ⟨hdone.keeps.otherDrv hc, hdone.keeps.otherLine hc⟩

theorem walk_init1 {s : State} (hs : s.InRun) (hfree : s.free = true) (hp : s.scPhase = .init1) :
    ∃ t, whenReturned (exec .dcdInitializeCh1 s) (setSc .init2) = .next t ∧ t.InRun := by
  obtain ⟨hi1, hl1, hi2, hl2⟩ := hs.fresh1 (.inr ⟨hp, not_stalled_of_free hfree⟩)
  simp only [exec, execDcdInitializeCh1]
  rw [ifUninitialised_fresh (c := .ch1) hi1 hl1]
  refine initPhase_inRun hs hfree (by rw [hp]; decide) fun t ht hinit hother => ?_
  obtain ⟨hdrv, hline⟩ := hother .ch2 (by decide)
  have hph := ht.phase.trans hp
  have hcounts : (setSc .init2 t).Counts := by
    refine ht.counts.setSc ?_ ?_ nofun nofun nofun nofun <;> rw [hph]
    · decide
    · rfl
  refine hcounts.inRun (fun hn => absurd (hn.symm.trans ht.not_scanning) nofun) (fun hn => ?_) (fun _ => ?_)
    fun _ _ hn => absurd rfl hn
  · rcases hn with hn | ⟨hn, -⟩ <;> cases hn
  · exact ⟨hinit, (congrArg Driver.inited hdrv).trans hi2, (congrArg Line.started hline).trans hl2⟩

theorem walk_init2 {s : State} (hs : s.InRun) (hfree : s.free = true) (hp : s.scPhase = .init2) :
    ∃ t, whenReturned (exec .dcdInitializeCh2 s) (setSc .check) = .next t ∧ t.InRun := by
  obtain ⟨hi1, hi2, hl2⟩ := hs.fresh2 ⟨hp, not_stalled_of_free hfree⟩
  simp only [exec, execDcdInitializeCh2]
  rw [ifUninitialised_fresh (c := .ch2) hi2 hl2]
  refine initPhase_inRun hs hfree (by rw [hp]; decide) fun t ht hinit _ => ?_
  have hph := ht.phase.trans hp
  refine ht.setSc rfl (fun c => ?_) ?_
  · cases c
    exacts [ht.ready .ch1 hi1, hinit]
  · refine ht.counts.setSc ?_ ?_ nofun nofun nofun nofun <;> rw [hph]
    · decide
    · rfl

/-- The loop test and the window test (45_session_controller.md R208, R210). -/
theorem checkPhase_inRun {s : State} (hs : s.InRun) (hfree : s.free = true) (hp : s.scPhase = .check) :
    (checkPhase s).InRun := by
  have hret : Returned s s := ⟨hfree, hs.counts, rfl, fun _ => id⟩
  have hready := hs.ready (by rw [hp]; rfl) (by rw [hp]; decide)
  have hhalt : s.scPhase ≠ .halt := by rw [hp]; decide
  unfold checkPhase
  split
  · next hrem => exact hret.setSc rfl hready (hs.counts.setSc hhalt (by rw [hp]; rfl) nofun nofun nofun fun _ => hrem)
  · next hrem =>
    split
    · next hcnt =>
      exact hret.setSc rfl hready (hs.counts.setSc hhalt (by rw [hp]; rfl) (fun _ => hrem) nofun (fun _ => hcnt) nofun)
    · next hcnt =>
      have hle := hs.counts.cnt_le
      have hne : s.cnt.toNat ≠ 4 := fun h => hcnt (BitVec.eq_of_toNat_eq h)
      exact hret.setSc rfl hready
        (hs.counts.setSc hhalt (by rw [hp]; rfl) (fun _ => hrem) (fun _ => by omega) nofun nofun)

/-- A clear of the window boundary; the next phase is of the boundary too (45_session_controller.md R210). -/
theorem boundaryClear_inRun {c : Chan} {s : State} {q : ScPhase} (hs : s.InRun) (hfree : s.free = true)
    (hp : s.scPhase = .wclr1 ∨ s.scPhase = .wclr2) (hq : q = .wclr2 ∨ q = .wsettle) :
    ∃ t, whenReturned (ifInitialised c s (clearDisplay c s)) (setSc q) = .next t ∧ t.InRun := by
  obtain ⟨hini, hhalt, hreset⟩ : s.scPhase.initialising = false ∧ s.scPhase ≠ .halt ∧ s.scPhase ≠ .reset := by
    rcases hp with hp | hp <;> rw [hp] <;> decide
  have hready := hs.ready hini hhalt
  rw [ifInitialised_ready (hready c)]
  refine channelPhase_inRun (clearDisplay_works c s) hs hfree hreset fun t ht => ?_
  have hcnt : t.cnt = 4 := ht.counts.cntAtBoundary (by rw [ht.phase]; exact hp.imp_right .inl)
  have hrem : t.rem ≠ 0 := ht.counts.remaining (by rw [ht.phase]; rcases hp with hp | hp <;> rw [hp] <;> rfl)
  refine ht.setSc (by rcases hq with rfl | rfl <;> rfl) (fun c => ht.ready c (hready c)) (ht.counts.setSc ?_ ?_
    (fun _ => hrem) (fun hd => ?_) (fun _ => hcnt) fun hoff => ?_)
  · rw [ht.phase]; exact hhalt
  · rw [ht.phase]; rcases hp with hp | hp <;> rcases hq with rfl | rfl <;> rw [hp] <;> rfl
  · rcases hq with rfl | rfl <;> cases hd
  · rcases hq with rfl | rfl <;> rcases hoff with h | h <;> cases h

/-- The window settle: the window is empty, and the read begins (45_session_controller.md R210, R211). -/
theorem walk_wsettle {s : State} (hs : s.InRun) (hfree : s.free = true) (hp : s.scPhase = .wsettle) :
    ∃ t, whenReturned (windowSettle s).result (setSc .read) = .next t ∧ t.InRun := by
  have hready := hs.ready (by rw [hp]; rfl) (by rw [hp]; decide)
  have hcnt := hs.cntAtBoundary (.inr (.inr hp))
  have hposition : s.pos % 4 = 0 := by
    rw [hs.windowPosition (by rw [hp]; decide), hp, hcnt]
    rfl
  have htotal := hs.total (by rw [hp]; decide)
  rw [hp] at htotal
  unfold windowSettle
  rw [sleep_none (s := emptyWindow s) hs.undisturbed]
  refine whenReturned_inRun (P := fun t => t = ((emptyWindow s).beginSleep s.cfg.tWindowSettle).endSleep
    s.cfg.tWindowSettle) ⟨hfree, rfl⟩ fun t _ ht => ?_
  subst ht
  have hcounts : (setSc .read (((emptyWindow s).beginSleep s.cfg.tWindowSettle).endSleep
      s.cfg.tWindowSettle)).Counts :=
    { hs.counts with
      wordPlayable := nofun
      total := fun _ => htotal
      remaining := fun _ => hs.remaining (by rw [hp]; rfl)
      cntBound := Nat.zero_le 3
      cntAtBoundary := nofun
      windowPosition := fun _ => hposition
      ended := fun h => by
        rcases h with h | h | h
        · cases h
        · cases h
        · exact absurd h (hs.counts.not_done (by rw [hp]; decide))
      doneHalts := fun h => absurd h (hs.counts.not_done (by rw [hp]; decide)) }
  exact hcounts.inRun_ready (fun _ => rfl) rfl hready

/-- The digit has been read (45_session_controller.md R212). -/
theorem leaveRead_inRun {s t : State} (h : Returned s t) (hs : s.InRun) (hp : s.scPhase = .read) :
    (leaveRead t).InRun :=
  have hlatched : Returned s (latchDigit t) := ⟨h.free, { h.counts with }, h.phase, h.ready⟩
  hlatched.setSc_inDigit hs hp rfl rfl rfl

theorem Delivered.returned {v : Nibble} {s t : State} (h : Delivered v s t) (hs : s.Counts) (hrst : s.rst = false)
    (hbus : ∀ c, (s.drv c).busReq = .none) (hph : s.scPhase ≠ .halt) : Returned s t := by
  have hdrv : ∀ c, t.drv c = s.drv c := h.keeps.drv nofun
  have hphase : t.scPhase = s.scPhase := h.keeps.read (·.scPhase) rfl
  refine ⟨(free_iff t).2 ⟨(h.keeps.read (·.rst) rfl).trans hrst, fun c => ?_, h.phase, hphase ▸ hph⟩,
    hs.of_keeps h.keeps, hphase, fun c hi => ?_⟩
  · rw [hdrv]; exact hbus c
  · rw [hdrv]; exact hi

/-- The controller's own read waits for a key (40_keypad_scanner.md R130). -/
theorem ScanStopped.rests {s t : State} (h : ScanStopped s t) (hs : s.InRun) (hp : s.scPhase = .read) : Rests t := by
  cases h with
  | reset h => exact absurd hs.counts h.not_counts
  | waiting h hk =>
    have hdrv : ∀ c, t.drv c = s.drv c := h.keeps.drv nofun
    have hph : t.scPhase = .read := (h.keeps.read (·.scPhase) rfl).trans hp
    have hscanning : t.scanning = true := by simpa [State.scanning] using hk
    refine ⟨by simp [State.free, hscanning],
      (hs.counts.of_keeps h.keeps).inRun_ready (fun _ => hph) (by rw [hph]; rfl) fun c => ?_⟩
    rw [hdrv]
    exact hs.ready (by rw [hp]; rfl) (by rw [hp]; decide) c

theorem walk_read {s : State} (hs : s.InRun) (hfree : s.free = true) (hp : s.scPhase = .read) :
    ∃ t, whenReturned (exec .ksReaddigit s) leaveRead = .next t ∧ t.InRun := by
  obtain ⟨hrst, hbus, -, hph⟩ := (free_iff s).1 hfree
  refine whenReturned_inRun (P := Returned s) ((readDigit_scans s).mono (fun t ht => ?_) fun t ht => ht.rests hs hp)
    fun t _ ht => leaveRead_inRun ht hs hp
  have hret := ht.returned hs.counts hrst hbus hph
  exact ⟨hret.free, hret⟩

/-- A read that waited goes on (40_keypad_scanner.md R130). -/
theorem scanOn_inRun {s : State} (hs : s.InRun) (hstalled : s.stalled = false) (hscanning : s.scanning = true) :
    ∃ t, scanOn s = .next t ∧ t.InRun := by
  have hp := hs.scanOnlyInRead hscanning
  have hk : s.ksPhase ≠ .idle := fun hk => by rw [(not_scanning_iff s).2 hk] at hscanning; cases hscanning
  have hscan := resumeScan_scans s hk
  unfold scanOn
  cases hr : resumeScan s with
  | done t =>
    rw [hr] at hscan
    have hret := Delivered.returned hscan hs.counts hs.released ((not_stalled_iff s).1 hstalled) (by rw [hp]; decide)
    exact ⟨_, rfl, by rw [if_pos (hret.phase.trans hp)]; exact leaveRead_inRun hret hs hp⟩
  | stop t =>
    rw [hr] at hscan
    exact ⟨t, rfl, (ScanStopped.rests hscan hs hp).inRun⟩

/-- Each of the ten digit words has five marks (30_encoding.md R98). -/
theorem markCount_morseRom {d : Nibble} (h : d.toNat ≤ 9) : markCount (morseRom d) = 5 := by
  have hall : ∀ e : Nibble, e.toNat ≤ 9 → markCount (morseRom e) = 5 := by decide
  exact hall d h

/-- The state `SC_CIPHER` leaves (45_session_controller.md R213). -/
def afterCipher (s : State) : State :=
  let t := latchEncrypted (encryptOp s.dig s.pos s)
  setSc .ch1pos (latchMorse (encodeOp t.enc t))

/-- The two combinational operations return at once. -/
theorem walkEncode_walkCipher {s : State} (hfree : s.free = true) :
    walkEncode (walkCipher s) = .next (afterCipher s) := by
  have h1 : (encryptOp s.dig s.pos s).free = true := hfree
  have h2 : (encodeOp (latchEncrypted (encryptOp s.dig s.pos s)).enc
      (latchEncrypted (encryptOp s.dig s.pos s))).free = true := hfree
  simp only [walkCipher, exec, execCeEncrypt, whenReturned, performAfter, h1, if_true, Run.result_done, walkEncode,
    execMeEncode, h2, afterCipher]

theorem walk_cipher {s : State} (hs : s.InRun) (hfree : s.free = true) (hp : s.scPhase = .cipher) :
    (afterCipher s).InRun := by
  have hready := hs.ready (by rw [hp]; rfl) (by rw [hp]; decide)
  have hrem := hs.remaining (by rw [hp]; rfl)
  have htotal : @Eq Nat (s.pos + s.rem) s.cfg.iterCount := by
    rw [hs.total (by rw [hp]; decide), hp]
    rfl
  have hposition : s.pos % 4 = s.cnt.toNat % 4 := by
    rw [hs.windowPosition (by rw [hp]; decide), hp]
    rfl
  have hcnt := hs.cntBound
  rw [hp] at hcnt
  have hdone := hs.counts.not_done (by rw [hp]; decide)
  have hlt := iterCount_lt hs.build
  have hpos : (s.pos + 1) % 2 ^ s.cfg.posWidth = s.pos + 1 :=
    have hleft := Nat.pos_of_ne_zero hrem
    Nat.mod_eq_of_lt (by omega)
  have hcounts : (afterCipher s).Counts :=
    { hs.counts with
      wordPlayable := fun _ => markCount_morseRom (encryptDigit_le _ _ _)
      total := fun _ => by
        show (s.pos + 1) % 2 ^ s.cfg.posWidth + s.rem = s.cfg.iterCount + 1
        rw [hpos, Nat.add_right_comm, htotal]
      remaining := fun _ => hrem
      cntBound := hcnt
      cntAtBoundary := nofun
      windowPosition := fun _ => by
        show (s.pos + 1) % 2 ^ s.cfg.posWidth % 4 = (s.cnt.toNat + 1) % 4
        rw [hpos]
        exact Nat.ModEq.add_right 1 hposition
      ended := fun h => by
        rcases h with h | h | h
        · cases h
        · cases h
        · exact absurd h hdone
      doneHalts := fun h => absurd h hdone }
  exact hcounts.inRun_ready
    (fun hn => absurd (hn.symm.trans (not_scanning_of_free (s := s) hfree)) nofun) rfl hready

/-- A phase with a digit in progress that performs an operation on a channel, and the phase after it. -/
theorem digitPhase_inRun {c : Chan} {s : State} {r : Run} {p q : ScPhase} (hr : WorksOn c .idle s r) (hs : s.InRun)
    (hfree : s.free = true) (hp : s.scPhase = p) (hcounted : q.counted = p.counted) (hdp : p.inDigit = true)
    (hdq : q.inDigit = true) : ∃ t, whenReturned (ifInitialised c s r) (setSc q) = .next t ∧ t.InRun := by
  obtain ⟨hi, hh, hne⟩ := hp ▸ p.inDigit_running hdp
  rw [ifInitialised_ready (hs.ready hi hh c)]
  exact channelPhase_inRun hr hs hfree hne fun t ht => ht.setSc_inDigit hs hp hcounted hdp hdq

theorem setScMi_inRun {s : State} (h : s.InRun) (i : BitVec 3) : ({ s with scMi := i } : State).InRun := { h with }

theorem walk_ch1pos {s : State} (hs : s.InRun) (hfree : s.free = true) (hp : s.scPhase = .ch1pos) :
    ∃ t, whenReturned (exec (positionInstr s) s) (setSc .ch1wr) = .next t ∧ t.InRun := by
  unfold positionInstr
  split
  · exact digitPhase_inRun (clearDisplay_works .ch1 s) hs hfree hp rfl rfl rfl
  · exact digitPhase_inRun (moveCursor_works .ch1 _ s) hs hfree hp rfl rfl rfl

theorem walk_ch2dig {s : State} (hs : s.InRun) (hfree : s.free = true) (hp : s.scPhase = .ch2dig) :
    ∃ t, whenReturned (exec (.dcdWritecharCh2 (digitChar s.enc)) s) (fun t => setSc .ch2mrk { t with scMi := 0 }) =
      .next t ∧ t.InRun := by
  simp only [exec, execDcdWritecharCh2]
  rw [ifInitialised_ready (hs.ready (by rw [hp]; rfl) (by rw [hp]; decide) .ch2)]
  exact channelPhase_inRun (writeChar_works .ch2 _ s) hs hfree (by rw [hp]; decide) fun t ht =>
    setScMi_inRun (ht.setSc_inDigit (q := .ch2mrk) hs hp rfl rfl rfl) 0

/-- A mark character, and the next or the play (45_session_controller.md R217). -/
theorem walkMark_inRun {s : State} (hs : s.InRun) (hfree : s.free = true) (hp : s.scPhase = .ch2mrk) :
    ∃ t, walkMark s = .next t ∧ t.InRun := by
  have hret : Returned s s := ⟨hfree, hs.counts, rfl, fun _ => id⟩
  unfold walkMark
  split
  · simp only [exec, execDcdWritecharCh2]
    rw [ifInitialised_ready (hs.ready (by rw [hp]; rfl) (by rw [hp]; decide) .ch2)]
    refine channelPhase_inRun (writeChar_works .ch2 _ s) hs hfree (by rw [hp]; decide) fun t ht => ?_
    unfold afterMark
    split
    · have hstay := ht.setSc_inDigit (q := .ch2mrk) hs hp rfl rfl rfl
      have hsame : setSc .ch2mrk t = t := by rw [← ht.phase.trans hp]; rfl
      exact setScMi_inRun (hsame ▸ hstay) _
    · exact ht.setSc_inDigit hs hp rfl rfl rfl
  · exact ⟨_, rfl, hret.setSc_inDigit hs hp rfl rfl rfl⟩

theorem walk_play {s : State} (hs : s.InRun) (hfree : s.free = true) (hp : s.scPhase = .play) :
    ∃ t, whenReturned (exec (.lmpPlay s.mw) s) (setSc .adv) = .next t ∧ t.InRun := by
  have hword : markCount s.mw ≤ 5 := (hs.wordPlayable (by rw [hp]; rfl)).le
  obtain ⟨-, hbus, hks, -⟩ := (free_iff s).1 hfree
  simp only [exec, execLmpPlay, if_pos hword]
  refine whenReturned_inRun (P := Returned s) ((playWord_ends s.mw s).mono (fun t ht => ?_) fun t ht => ?_)
    fun t _ ht => ht.setSc_inDigit hs hp rfl rfl rfl
  · have hk := ht.1.keeps
    have hdrv : ∀ c, t.drv c = s.drv c := hk.drv nofun
    have hret : Returned s t := .of_keeps hs.counts hfree hk (fun c => by rw [hdrv]; exact hbus c)
      ((hk.read (·.ksPhase) rfl).trans hks) fun c hi => by rw [hdrv]; exact hi
    exact ⟨hret.free, hret⟩
  · exact absurd hs.counts ht.not_counts

/-- A completed digit is counted (45_session_controller.md R218). -/
theorem walk_adv {s : State} (hs : s.InRun) (hfree : s.free = true) (hp : s.scPhase = .adv) :
    (setSc .check (advanceCounts s)).InRun := by
  have hready := hs.ready (by rw [hp]; rfl) (by rw [hp]; decide)
  have hrem := Nat.pos_of_ne_zero (hs.remaining (by rw [hp]; rfl))
  have htotal : @Eq Nat (s.pos + s.rem) (s.cfg.iterCount + 1) := by
    rw [hs.total (by rw [hp]; decide), hp]
    rfl
  have hposition : s.pos % 4 = (s.cnt.toNat + 1) % 4 := by
    rw [hs.windowPosition (by rw [hp]; decide), hp]
    rfl
  have hcnt : s.cnt.toNat ≤ 3 := by
    have h := hs.cntBound
    rwa [hp] at h
  have hsucc := cnt_succ hcnt
  have hdone := hs.counts.not_done (by rw [hp]; decide)
  have hcounts : (setSc .check (advanceCounts s)).Counts :=
    { hs.counts with
      wordPlayable := nofun
      total := fun _ => by
        show @Eq Nat (s.pos + (s.rem - 1)) s.cfg.iterCount
        omega
      remaining := nofun
      cntBound := by
        show (s.cnt + 1).toNat ≤ 4
        omega
      cntAtBoundary := nofun
      windowPosition := fun _ => by
        show s.pos % 4 = (s.cnt + 1).toNat % 4
        rw [hsucc]
        exact hposition
      ended := fun h => by
        rcases h with h | h | h
        · cases h
        · cases h
        · exact absurd h hdone
      doneHalts := fun h => absurd h hdone }
  exact hcounts.inRun_ready
    (fun hn => absurd (hn.symm.trans (not_scanning_of_free (s := s) hfree)) nofun) rfl hready

theorem walk_off1 {s : State} (hs : s.InRun) (hfree : s.free = true) (hp : s.scPhase = .off1) :
    ∃ t, whenReturned (exec .dcdDisplayoffCh1 s) (setSc .off2) = .next t ∧ t.InRun := by
  have hready := hs.ready (by rw [hp]; rfl) (by rw [hp]; decide)
  simp only [exec, execDcdDisplayoffCh1]
  rw [ifInitialised_ready (hready .ch1)]
  refine channelPhase_inRun (writeCommand_works .ch1 _ s) hs hfree (by rw [hp]; decide) fun t ht => ?_
  have hph := ht.phase.trans hp
  obtain ⟨hrem, -⟩ := ht.counts.ended (.inl hph)
  refine ht.setSc rfl (fun c => ht.ready c (hready c))
    (ht.counts.setSc ?_ ?_ nofun nofun nofun fun _ => hrem) <;> rw [hph]
  · decide
  · rfl

/-- The run is over (45_session_controller.md R221). -/
theorem haltDone_inRun {t : State} (h : t.Counts) (hscan : t.scanning = false) (hp : t.scPhase = .off2) :
    ∃ u, (haltDone t).result = .next u ∧ u.InRun := by
  have hend := h.ended (.inr (.inl hp))
  have hcounts : ((t.setDone.emit .done).halt).Counts :=
    { h with
      wordPlayable := nofun
      total := fun hn => absurd rfl hn
      remaining := nofun
      cntBound := h.cnt_le
      cntAtBoundary := nofun
      windowPosition := fun hn => absurd rfl hn
      ended := fun _ => hend
      doneHalts := fun _ => rfl }
  refine ⟨(t.setDone.emit .done).halt, ?_, hcounts.inRun (fun hn => absurd (hn.symm.trans hscan) nofun) nofun nofun
    fun _ _ _ hn => absurd rfl hn⟩
  unfold haltDone
  rw [resetPoint_none (s := t.setDone.emit .done) h.undisturbed]
  rfl

theorem walk_off2 {s : State} (hs : s.InRun) (hfree : s.free = true) (hp : s.scPhase = .off2) :
    ∃ t, performAfter (exec .dcdDisplayoffCh2 s) haltDone = .next t ∧ t.InRun := by
  have hready := hs.ready (by rw [hp]; rfl) (by rw [hp]; decide) .ch2
  have hworks := writeCommand_works .ch2 s.cfg.cmdDisplayOff s
  simp only [exec, execDcdDisplayoffCh2]
  rw [ifInitialised_ready hready]
  unfold displayOff
  cases hr : writeCommand .ch2 s.cfg.cmdDisplayOff s with
  | done t =>
    rw [hr] at hworks
    have hret := ChannelDone.returned hworks hs.counts hfree
    obtain ⟨u, hu, hrun⟩ := haltDone_inRun hret.counts hret.not_scanning (hret.phase.trans hp)
    exact ⟨u, by simp [performAfter, hret.free, hu], hrun⟩
  | stop t =>
    rw [hr] at hworks
    have hrests := ChannelStopped.rests hworks hs hfree (by rw [hp]; decide)
    exact ⟨t, by simp [performAfter, hrests.busy], hrests.inRun⟩

/-- One phase of the walk in a run (45_session_controller.md R206). -/
theorem walk_inRun {s : State} (hs : s.InRun) (hfree : s.free = true) : ∃ t, walk s = .next t ∧ t.InRun := by
  unfold walk
  cases hp : s.scPhase with
  | reset =>
    have hfresh := hs.fresh1 (.inl hp)
    have hcounts : (setSc .init1 s).Counts := by
      refine hs.counts.setSc ?_ ?_ nofun nofun nofun nofun <;> rw [hp]
      · decide
      · rfl
    refine ⟨_, rfl, hcounts.inRun (fun hn => ?_) (fun _ => hfresh) nofun fun _ hn => absurd rfl hn⟩
    exact absurd (hn.symm.trans (not_scanning_of_free (s := s) hfree)) nofun
  | init1 => exact walk_init1 hs hfree hp
  | init2 => exact walk_init2 hs hfree hp
  | check => exact ⟨_, rfl, checkPhase_inRun hs hfree hp⟩
  | wclr1 => exact boundaryClear_inRun hs hfree (.inl hp) (.inl rfl)
  | wclr2 => exact boundaryClear_inRun hs hfree (.inr hp) (.inr rfl)
  | wsettle => exact walk_wsettle hs hfree hp
  | read => exact walk_read hs hfree hp
  | cipher => exact ⟨_, walkEncode_walkCipher hfree, walk_cipher hs hfree hp⟩
  | ch1pos => exact walk_ch1pos hs hfree hp
  | ch1wr => exact digitPhase_inRun (writeChar_works .ch1 _ s) hs hfree hp rfl rfl rfl
  | ch2clr => exact digitPhase_inRun (clearDisplay_works .ch2 s) hs hfree hp rfl rfl rfl
  | ch2dig => exact walk_ch2dig hs hfree hp
  | ch2mrk => exact walkMark_inRun hs hfree hp
  | play => exact walk_play hs hfree hp
  | adv => exact ⟨_, rfl, walk_adv hs hfree hp⟩
  | off1 => exact walk_off1 hs hfree hp
  | off2 => exact walk_off2 hs hfree hp
  | halt => exact absurd hp (not_halt_of_free hfree)

/-- Settles O53: nothing happens in `SC_HALT` or in a ready-wait; a waiting read goes on; else the walk does. -/
theorem inRunIsKept : Obligations.InRunIsKept := by
  intro s hs
  simp only [step, hs.build, hs.released, hs.nothingPresented, Bool.not_true, Bool.false_eq_true, if_false]
  split
  · exact ⟨s, rfl, hs⟩
  · next hhalted =>
    split
    · exact ⟨s, rfl, hs⟩
    · next hstalled =>
      split
      · next hscanning => exact scanOn_inRun hs (Bool.eq_false_iff.2 hstalled) hscanning
      · next hscanning =>
        refine walk_inRun hs ?_
        simp [State.free, hs.released, hhalted, hstalled, hscanning]

end Sys2Proof.Machine
end

section
/-! What no rule reads (10_state.md R31, R34, R39, R44): the status flags, the cursor registers, the ghost window and
the display views. A statement is `Blind` if it does the same whatever these hold; blind statements compose, so it is
enough to see it of each primitive one. -/

namespace Sys2Proof.Machine

open Sys2Proof.Config

/-! ### Blind statements -/

/-- The state a run ends in, with `f` applied. -/
def Run.map (f : State → State) : Run → Run
  | .done s => .done (f s)
  | .stop s => .stop (f s)

/-- A change of the state that reads no flag and no ghost, and leaves `rst`. -/
structure BlindUpdate (g : State → State) : Prop where
  flags : ∀ x y z s, g (orFlags x y z s) = orFlags x y z (g s)
  ghosts : ∀ s, eraseGhosts (g (eraseGhosts s)) = eraseGhosts (g s)
  rst : ∀ s, (g s).rst = s.rst

/-- A change of registers that is seen to be blind by computing it. -/
theorem BlindUpdate.of_eq {g : State → State}
    (h : (fun x y z s => (g (orFlags x y z s), eraseGhosts (g (eraseGhosts s)), (g s).rst)) =
      fun x y z s => (orFlags x y z (g s), eraseGhosts (g s), s.rst)) : BlindUpdate g := by
  have hall := fun x y z s => congrFun (congrFun (congrFun (congrFun h x) y) z) s
  simp only [Prod.mk.injEq] at hall
  exact ⟨fun x y z s => (hall x y z s).1, fun s => (hall true true true s).2.1, fun s => (hall true true true s).2.2⟩

/-- A choice that depends on no flag and on no ghost. -/
theorem BlindUpdate.ite (p : State → Prop) [DecidablePred p]
    (hp : (fun x y z s => (p (orFlags x y z s), p (eraseGhosts s))) = fun _ _ _ s => (p s, p s)) {g k : State → State}
    (hg : BlindUpdate g) (hk : BlindUpdate k) : BlindUpdate fun s => if p s then g s else k s := by
  have hall := fun x y z s => congrFun (congrFun (congrFun (congrFun hp x) y) z) s
  simp only [Prod.mk.injEq] at hall
  refine ⟨fun x y z s => ?_, fun s => ?_, fun s => ?_⟩
  · have hs : p (orFlags x y z s) = p s := (hall x y z s).1
    by_cases h : p s
    · rw [if_pos h, if_pos (hs ▸ h), hg.flags]
    · rw [if_neg h, if_neg (hs ▸ h), hk.flags]
  · have hs : p (eraseGhosts s) = p s := (hall true true true s).2
    by_cases h : p s
    · rw [if_pos h, if_pos (hs ▸ h), hg.ghosts]
    · rw [if_neg h, if_neg (hs ▸ h), hk.ghosts]
  · split
    · exact hg.rst s
    · exact hk.rst s

/-- A statement that reads no flag and no ghost; with flags set beforehand it does the same and the flags are still set,
unless `rst` cuts it off. -/
structure Blind (f : State → Run) : Prop where
  flags : ∀ x y z s, s.rst = false → f (orFlags x y z s) = (f s).map (unlessReset (orFlags x y z) id)
  ghosts : ∀ s, (f (eraseGhosts s)).map eraseGhosts = (f s).map eraseGhosts
  rst : ∀ s t, f s = .done t → t.rst = s.rst

theorem unlessReset_released {f g : State → State} {t : State} (h : t.rst = false) : unlessReset f g t = f t := by
  simp [unlessReset, h]

/-- A blind statement does the same from two states that differ in the ghosts alone. -/
theorem Blind.congr {f : State → Run} (h : Blind f) {s s' : State} (hs : eraseGhosts s = eraseGhosts s') :
    (f s).map eraseGhosts = (f s').map eraseGhosts := by
  rw [← h.ghosts s, hs, h.ghosts s']

theorem Blind.comp {f : State → Run} {g : State → State} (hf : Blind f) (hg : BlindUpdate g) :
    Blind fun s => f (g s) where
  flags := fun x y z s hs => by rw [hg.flags, hf.flags x y z (g s) ((hg.rst s).trans hs)]
  ghosts := fun s => hf.congr (hg.ghosts s)
  rst := fun s t h => (hf.rst (g s) t h).trans (hg.rst s)

theorem Blind.done : Blind .done where
  flags := fun x y z s hs => by rw [Run.map, unlessReset_released hs]
  ghosts := fun _ => rfl
  rst := fun s t h => by cases h; rfl

theorem Blind.stop : Blind .stop where
  flags := fun x y z s hs => by rw [Run.map, unlessReset_released hs]
  ghosts := fun _ => rfl
  rst := fun s t h => nomatch h

theorem Blind.of {g : State → State} (hg : BlindUpdate g) : Blind fun s => .done (g s) := Blind.done.comp hg

theorem Blind.andThen {f g : State → Run} (hf : Blind f) (hg : Blind g) : Blind fun s => (f s).andThen g where
  flags := fun x y z s hs => by
    rw [hf.flags x y z s hs]
    cases h : f s with
    | done t =>
      have ht : t.rst = false := (hf.rst s t h).trans hs
      simp only [Run.map, Run.done_andThen]
      rw [unlessReset_released ht, hg.flags x y z t ht]
      rfl
    | stop t => rfl
  ghosts := fun s => by
    have h := hf.ghosts s
    revert h
    cases f (eraseGhosts s) <;> cases f s <;> intro h
    · exact hg.congr (Run.done.inj h)
    · cases h
    · cases h
    · exact h
  rst := fun s t h => by
    obtain ⟨u, hu, ht⟩ := Run.andThen_done h
    exact (hg.rst u t ht).trans (hf.rst s u hu)

/-- A statement may depend on anything but the flags and the ghosts. -/
theorem Blind.read {α : Type} (a : State → α)
    (ha : (fun x y z s => (a (orFlags x y z s), a (eraseGhosts s))) = fun _ _ _ s => (a s, a s))
    {F : α → State → Run} (hF : ∀ v, Blind (F v)) :
    Blind fun s => F (a s) s := by
  have hall := fun x y z s => congrFun (congrFun (congrFun (congrFun ha x) y) z) s
  simp only [Prod.mk.injEq] at hall
  exact {
    flags := fun x y z s hs => by simp only [(hall x y z s).1]; exact (hF _).flags x y z s hs
    ghosts := fun s => by simp only [(hall true true true s).2]; exact (hF _).ghosts s
    rst := fun s t h => (hF _).rst s t h }

theorem Blind.ite {f g : State → Run} (p : Prop) [Decidable p] (hf : Blind f) (hg : Blind g) :
    Blind fun s => if p then f s else g s := by
  by_cases h : p
  · simpa only [if_pos h] using hf
  · simpa only [if_neg h] using hg

theorem assertReset_blind : Blind fun s => .stop s.assertReset where
  flags := fun _ _ _ _ _ => rfl
  ghosts := fun _ => rfl
  rst := fun _ _ h => nomatch h

/-- `rst` looks at nothing but what is to come of it. -/
theorem resetPoint_blind : Blind resetPoint := by
  have hcount : ∀ n : Option Nat, BlindUpdate fun s => { s with rstIn := n } := fun _ => .of_eq rfl
  refine Blind.read (fun s => s.rstIn) rfl (F := fun n s => match n with
    | none => .done s
    | some 0 => .stop s.assertReset
    | some (n + 1) => .done { s with rstIn := some n }) fun n => ?_
  rcases n with _ | _ | n
  · exact .done
  · exact assertReset_blind
  · exact .of (hcount (some n))

/-- An event: `g`, and `rst` may come. -/
theorem BlindUpdate.event {g : State → State} (hg : BlindUpdate g) : Blind fun s => resetPoint (g s) :=
  resetPoint_blind.comp hg

theorem sleep_blind (n : Nat) : Blind fun s => s.sleep n :=
  have hbegin : BlindUpdate fun s => s.beginSleep n := .of_eq rfl
  have hend : BlindUpdate fun s => s.endSleep n := .of_eq rfl
  hbegin.event.andThen (.of hend)

theorem writeRows_blind (v : Nibble) : Blind (writeRows v) :=
  have h : BlindUpdate fun s => s.driveRows v := .of_eq rfl
  h.event

theorem writeLed_blind (b : Bool) : Blind (writeLed b) :=
  have h : BlindUpdate fun s => s.driveLed b := .of_eq rfl
  h.event

theorem raise_noMatch_blind (p : Byte) : Blind fun s => s.raise (.noMatch p) :=
  have h : BlindUpdate fun s => s.setNomatch.emit (.noMatch p) :=
    { flags := fun x y z s => by simp [orFlags, State.setNomatch, State.emit]
      ghosts := fun _ => rfl
      rst := fun _ => rfl }
  h.event

theorem raise_busTimeout_blind (c : Chan) : Blind fun s => s.raise (.busTimeout c) :=
  have h : BlindUpdate fun s => s.setBusTimeout.emit (.busTimeout c) :=
    { flags := fun x y z s => by simp [orFlags, State.setBusTimeout, State.emit]
      ghosts := fun _ => rfl
      rst := fun _ => rfl }
  have hhalt : BlindUpdate State.halt := .of_eq rfl
  h.event.andThen (Blind.stop.comp hhalt)

theorem haltDone_blind : Blind haltDone :=
  have h : BlindUpdate fun s => s.setDone.emit .done :=
    { flags := fun x y z s => by simp [orFlags, State.setDone, State.emit]
      ghosts := fun _ => rfl
      rst := fun _ => rfl }
  have hhalt : BlindUpdate State.halt := .of_eq rfl
  h.event.andThen (.of hhalt)

/-! ### The display channels -/

/-- How the next ready-wait will end, and what follows it, are no ghosts. -/
theorem readyWait_blind (c : Chan) (v : View → View) : Blind (readyWait c v) := by
  have hgive : ∀ n, Blind fun s => s.readyGivenUp c n := fun n => by
    have htime : BlindUpdate fun s => { s with time := s.time + n } := .of_eq rfl
    exact (raise_busTimeout_blind c).comp htime
  have hseen : ∀ w r, Blind fun s => resetPoint (s.readySeen c w r v) := fun w r => by
    have h : BlindUpdate fun s => s.readySeen c w r v := by cases c <;> exact .of_eq rfl
    exact h.event
  refine Blind.read (fun s => ((s.line c).ready.pop, s.cfg.busTimeout)) (by cases c <;> rfl) (F := fun p s =>
    match p.1 with
    | (some w, r) => if inTime p.2 w then resetPoint (s.readySeen c w r v) else s.readyGivenUp c (p.2.getD 0)
    | (none, _) => match p.2 with
      | none => .stop s
      | some t => s.readyGivenUp c t) fun p => ?_
  obtain ⟨⟨_ | w, r⟩, bound⟩ := p
  · cases bound with
    | none => exact .stop
    | some t => exact hgive t
  · exact .ite _ (hseen w r) (hgive _)

theorem sendByte_blind (c : Chan) (b : Byte) (v : View → View) : Blind (sendByte c b v) :=
  have h : BlindUpdate fun s => s.requestData c b := by cases c <;> exact .of_eq rfl
  h.event.andThen (readyWait_blind c v)

theorem stepDelay_blind : Blind stepDelay := Blind.read (fun s => s.cfg.tStep) rfl sleep_blind

theorem nextStep_blind (c : Chan) : BlindUpdate (nextStep c) := by cases c <;> exact .of_eq rfl

theorem setPhase_blind (c : Chan) (q : DPhase) : BlindUpdate (setPhase c q) := by cases c <;> exact .of_eq rfl

theorem setCursor_blind (c : Chan) (v : BitVec 3) : BlindUpdate (setCursor c v) := by cases c <;> exact .of_eq rfl

theorem setSeq_blind (c : Chan) (j : Nat) : BlindUpdate (setSeq c j) := by cases c <;> exact .of_eq rfl

theorem beginTransfer_blind (c : Chan) (rs : Bool) (b : Byte) : BlindUpdate (beginTransfer c rs b) := by
  cases c <;> exact .of_eq rfl

theorem markInitialised_blind (c : Chan) : BlindUpdate (markInitialised c) := by cases c <;> exact .of_eq rfl

/-- The cursor register is counted up, and read for nothing else. -/
theorem countCursor_blind (c : Chan) : BlindUpdate fun t => setCursor c ((t.drv c).cur + 1) t := by
  cases c <;> exact .of_eq rfl

theorem sendFrame_blind (c : Chan) (n : Nibble) (en rs : Bool) (v : View → View) : Blind (sendFrame c n en rs v) :=
  ((Blind.read (fun s => frame s.cfg n en rs) rfl fun b => sendByte_blind c b v).andThen stepDelay_blind).andThen
    (.of (nextStep_blind c))

theorem sendNibble_blind (c : Chan) (n : Nibble) (rs : Bool) (v : View → View) : Blind (sendNibble c n rs v) :=
  (sendFrame_blind c n true rs id).andThen (sendFrame_blind c n false rs v)

theorem transfer_blind (c : Chan) (rs : Bool) (b : Byte) : Blind (transfer c rs b) :=
  ((sendNibble_blind c (highNibble b) rs id).comp (beginTransfer_blind c rs b)).andThen
    (Blind.read (fun t => t.cfg) rfl fun p => sendNibble_blind c (lowNibble b) rs (View.receive p rs b))

theorem finish_blind (c : Chan) : Blind (finish c) :=
  (Blind.of (setPhase_blind c .idle)).comp (setPhase_blind c .done)

theorem setCursor_finish_blind (c : Chan) (v : BitVec 3) : Blind fun t => finish c (setCursor c v t) :=
  (finish_blind c).comp (setCursor_blind c v)

theorem writeCommand_blind (c : Chan) (b : Byte) : Blind (writeCommand c b) :=
  (transfer_blind c false b).andThen (finish_blind c)

theorem writeChar_blind (c : Chan) (b : Byte) : Blind (writeChar c b) :=
  (transfer_blind c true b).andThen ((finish_blind c).comp (countCursor_blind c))

theorem moveCursor_blind (c : Chan) (o : BitVec 2) : Blind (moveCursor c o) :=
  (Blind.read (fun s => cursorCommand s.cfg o) rfl (transfer_blind c false)).andThen (setCursor_finish_blind c _)

theorem displayOff_blind (c : Chan) : Blind (displayOff c) :=
  Blind.read (fun s => s.cfg.cmdDisplayOff) rfl (writeCommand_blind c)

theorem clearCommand_blind (c : Chan) : Blind fun s => transfer c false s.cfg.cmdClear s :=
  Blind.read (fun s => s.cfg.cmdClear) rfl (transfer_blind c false)

theorem homeCommand_blind (c : Chan) : Blind fun s => transfer c false s.cfg.cmdHome s :=
  Blind.read (fun s => s.cfg.cmdHome) rfl (transfer_blind c false)

theorem clearDisplay_blind (c : Chan) : Blind (clearDisplay c) :=
  have hsettle : Blind fun t => (setPhase c .settle t).sleep t.cfg.tClearSettle :=
    Blind.read (fun t => t.cfg.tClearSettle) rfl fun n => (sleep_blind n).comp (setPhase_blind c .settle)
  (((clearCommand_blind c).andThen (homeCommand_blind c)).andThen hsettle).andThen (setCursor_finish_blind c 0)

theorem sendRaw_blind (c : Chan) (b : Byte) : Blind (sendRaw c b) := (sendByte_blind c b id).andThen stepDelay_blind

theorem sendPairs_blind (c : Chan) (ps : List (Byte × Byte)) (j : Nat) : Blind (sendPairs c ps j) := by
  induction ps generalizing j with
  | nil => exact .done
  | cons p ps ih =>
    exact (((sendRaw_blind c p.1).comp (setSeq_blind c j)).andThen (sendRaw_blind c p.2)).andThen (ih (j + 1))

theorem startBus_blind (c : Chan) : Blind (startBus c) :=
  have h : BlindUpdate fun s => s.requestStart c := by cases c <;> exact .of_eq rfl
  (h.event.comp (setPhase_blind c .start)).andThen (readyWait_blind c id)

theorem addressBus_blind (c : Chan) : Blind (addressBus c) :=
  have h : ∀ a, BlindUpdate fun s => s.requestAddr c a := fun a => by cases c <;> exact .of_eq rfl
  (Blind.read (fun s => busAddr s.cfg c) rfl fun a => (h a).event.comp (setPhase_blind c .addr)).andThen
    (readyWait_blind c id)

theorem initDisplay_blind (c : Chan) : Blind (initDisplay c) :=
  (((startBus_blind c).andThen (addressBus_blind c)).andThen
    (Blind.read (fun t => t.cfg.initSeq) rfl fun ps => (sendPairs_blind c ps 0).comp (setPhase_blind c .seq))).andThen
    ((clearDisplay_blind c).comp (markInitialised_blind c))

/-! ### The scanner and the player -/

theorem setKs_blind (ph : KsPhase) : BlindUpdate (setKs ph) := .of_eq rfl

theorem deliverDigit_blind (d : Nibble) : Blind (deliverDigit d) :=
  have h : BlindUpdate fun s => setKs .idle ((setKs .done s).returnDigit d) := .of_eq rfl
  .of h

theorem noDigit_blind : Blind noDigit :=
  (Blind.read (fun s => s.ksPat) rfl raise_noMatch_blind).andThen
    (Blind.read (fun t => (keymapRom t.cfg 0).digit) rfl deliverDigit_blind)

theorem lookupPattern_blind : Blind lookupPattern := by
  refine Blind.read (fun s => (findSlot s.ksPat s.cfg.keymap 0, s.cfg)) rfl (F := fun p s => match p.1 with
    | some j =>
      let t := { s with ksSlot := BitVec.ofNat 4 j }
      if (keymapRom p.2 j).isDigit then deliverDigit (keymapRom p.2 j).digit t else noDigit t
    | none => noDigit { s with ksSlot := 0 }) fun p => ?_
  have hslot : ∀ v : BitVec 4, BlindUpdate fun s => { s with ksSlot := v } := fun _ => .of_eq rfl
  obtain ⟨_ | j, p⟩ := p
  · exact noDigit_blind.comp (hslot 0)
  · exact .ite _ ((deliverDigit_blind _).comp (hslot _)) (noDigit_blind.comp (hslot _))

theorem capturePattern_blind (c : Nibble) : Blind (capturePattern c) :=
  have hpat : BlindUpdate fun s => setKs .lookup { s with ksPat := keyPattern s.kpRow c } := .of_eq rfl
  (Blind.read (fun s => allInactive s.cfg) rfl fun v => (writeRows_blind v).comp hpat).andThen lookupPattern_blind

theorem strobeRow_blind : Blind strobeRow :=
  (Blind.read (fun s => strobe s.cfg s.ksRow) rfl fun v => (writeRows_blind v).comp (setKs_blind .drive)).andThen
    (Blind.read (fun t => t.cfg.tRowSettle) rfl fun n => (sleep_blind n).comp (setKs_blind .settle))

theorem sampleColumns_blind : Blind sampleColumns :=
  have h : BlindUpdate fun s => (setKs .sample { s with cols := s.cols.tail }).emit (.sample (columnsNow s)) :=
    .of_eq rfl
  h.event

theorem scanRow_blind {more : State → Run} (hmore : Blind more) : Blind (scanRow more) := by
  have hnext : BlindUpdate nextRow := .of_eq rfl
  have hturn : ∀ col, Blind fun u => if col ≠ u.cfg.colIdle then capturePattern col u else more (nextRow u) :=
    fun col => Blind.read (fun u => u.cfg.colIdle) rfl fun _ => .ite _ (capturePattern_blind col) (hmore.comp hnext)
  exact strobeRow_blind.andThen (Blind.read columnsNow rfl fun col => sampleColumns_blind.andThen (hturn col))

theorem scanRows_blind (n : Nat) : Blind (scanRows n) := by
  induction n with
  | zero => exact .stop
  | succ n ih => exact scanRow_blind ih

theorem resumeScan_blind : Blind resumeScan := Blind.read scanTurns rfl scanRows_blind

theorem readDigit_blind : Blind readDigit :=
  have h : BlindUpdate fun s => setKs .drive { s with ksRow := 0 } := .of_eq rfl
  Blind.read scanTurns rfl fun n => (scanRows_blind n).comp h

theorem slotPattern_blind (k : Nat) : Blind (slotPattern k) :=
  have h : BlindUpdate fun s => setKs .lookup { s with ksPat := (keymapRom s.cfg k).pattern } := .of_eq rfl
  lookupPattern_blind.comp h

theorem setPlayer_blind (st : LmpState) : BlindUpdate (setPlayer st) := .of_eq rfl

theorem markOn_blind (w : Byte) (i : Nat) : Blind (markOn w i) :=
  have h : BlindUpdate fun s => setPlayer .markOn { s with lmpIdx := BitVec.ofNat 3 i } := .of_eq rfl
  ((writeLed_blind true).comp h).andThen (Blind.read (fun t => holdTime t.cfg (markAt w i)) rfl sleep_blind)

theorem gapOff_blind : Blind gapOff :=
  ((writeLed_blind false).comp (setPlayer_blind .gapOff)).andThen (Blind.read (fun t => t.cfg.tDot) rfl sleep_blind)

theorem playMarks_blind (w : Byte) (n i : Nat) : Blind (playMarks w n i) := by
  induction n generalizing i with
  | zero => exact .done
  | succ n ih => exact ((markOn_blind w i).andThen gapOff_blind).andThen (ih (i + 1))

theorem playWord_blind (w : Byte) : Blind (playWord w) :=
  have hgap : Blind charGap :=
    Blind.read (fun s => s.cfg.tCharGap) rfl fun n => (sleep_blind n).comp (setPlayer_blind .gapOff)
  ((playMarks_blind w _ 0).andThen hgap).andThen (.of (setPlayer_blind .idle))

/-! ### The session controller -/

theorem setSc_blind (ph : ScPhase) : BlindUpdate (setSc ph) := .of_eq rfl

theorem startSession_blind : Blind startSession :=
  (((initDisplay_blind .ch1).comp (setSc_blind .init1)).andThen
    ((initDisplay_blind .ch2).comp (setSc_blind .init2))).andThen (.of (setSc_blind .check))

theorem windowSettle_blind : Blind windowSettle :=
  have h : BlindUpdate emptyWindow := .of_eq rfl
  Blind.read (fun s => s.cfg.tWindowSettle) rfl fun n => (sleep_blind n).comp h

theorem windowBoundary_blind : Blind windowBoundary :=
  Blind.read (fun s => s.cnt) rfl fun k => .ite (k = 4)
    ((((clearDisplay_blind .ch1).comp (setSc_blind .wclr1)).andThen
      ((clearDisplay_blind .ch2).comp (setSc_blind .wclr2))).andThen (windowSettle_blind.comp (setSc_blind .wsettle)))
    .done

theorem readPhase_blind : Blind readPhase :=
  have h : BlindUpdate latchDigit := .of_eq rfl
  (readDigit_blind.comp (setSc_blind .read)).andThen (.of h)

theorem cipherPhase_blind : BlindUpdate cipherPhase := .of_eq rfl

theorem positionPhase_blind : Blind positionPhase :=
  Blind.read (fun s => s.cnt) rfl fun k => .ite (k = 0) ((clearDisplay_blind .ch1).comp (setSc_blind .ch1pos))
    ((moveCursor_blind .ch1 (k.setWidth 2)).comp (setSc_blind .ch1pos))

theorem rawDigitPhase_blind : Blind rawDigitPhase :=
  Blind.read (fun s => digitChar s.dig) rfl fun b => (writeChar_blind .ch1 b).comp (setSc_blind .ch1wr)

theorem encDigitPhase_blind : Blind encDigitPhase :=
  Blind.read (fun s => digitChar s.enc) rfl fun b => (writeChar_blind .ch2 b).comp (setSc_blind .ch2dig)

theorem writeMarks_blind (n i : Nat) : Blind (writeMarks n i) := by
  induction n generalizing i with
  | zero => exact .done
  | succ n ih =>
    have hi : BlindUpdate fun s => { s with scMi := BitVec.ofNat 3 i } := .of_eq rfl
    have hmark : Blind (writeMark i) :=
      Blind.read (fun s => markChar (markAt s.mw i)) rfl fun b => (writeChar_blind .ch2 b).comp hi
    exact hmark.andThen (ih (i + 1))

theorem marksPhase_blind : Blind marksPhase :=
  Blind.read (fun s => markCount s.mw) rfl fun n => (writeMarks_blind n 0).comp (setSc_blind .ch2mrk)

theorem playPhase_blind : Blind playPhase :=
  Blind.read (fun s => s.mw) rfl fun w => (playWord_blind w).comp (setSc_blind .play)

theorem iterateSession_blind : Blind iterateSession :=
  have hadvance : BlindUpdate fun t => setSc .check (advanceCounts (setSc .adv t)) := .of_eq rfl
  ((((((((windowBoundary_blind.andThen readPhase_blind).andThen (.of cipherPhase_blind)).andThen
    positionPhase_blind).andThen rawDigitPhase_blind).andThen
    ((clearDisplay_blind .ch2).comp (setSc_blind .ch2clr))).andThen encDigitPhase_blind).andThen
    marksPhase_blind).andThen playPhase_blind).andThen (.of hadvance)

theorem terminateSession_blind : Blind terminateSession :=
  (((displayOff_blind .ch1).comp (setSc_blind .off1)).andThen
    ((displayOff_blind .ch2).comp (setSc_blind .off2))).andThen haltDone_blind

theorem iterations_blind (n : Nat) : Blind (iterations n) := by
  induction n with
  | zero => exact .done
  | succ n ih => exact Blind.read (fun s => s.rem) rfl fun k => .ite (k = 0) .done (iterateSession_blind.andThen ih)

theorem runSession_blind : Blind runSession :=
  (startSession_blind.andThen (Blind.read (fun t => t.rem) rfl iterations_blind)).andThen terminateSession_blind

/-! ### Instructions -/

/-- An answer that depends on no flag and on no ghost. -/
structure BlindAnswer (e : State → Host.Outcome State Fault Refusal) : Prop where
  flags : ∀ x y z s, s.rst = false → e (orFlags x y z s) = mapNext (unlessReset (orFlags x y z) id) (e s)
  ghosts : ∀ s, mapNext eraseGhosts (e (eraseGhosts s)) = mapNext eraseGhosts (e s)

theorem mapNext_result (f : State → State) (r : Run) : mapNext f r.result = (r.map f).result := by
  cases r <;> rfl

theorem Blind.result {f : State → Run} (hf : Blind f) : BlindAnswer fun s => (f s).result where
  flags := fun x y z s hs => by rw [hf.flags x y z s hs, mapNext_result]
  ghosts := fun s => by rw [mapNext_result, mapNext_result, hf.ghosts s]

theorem BlindUpdate.next {g : State → State} (hg : BlindUpdate g) : BlindAnswer fun s => .next (g s) :=
  (Blind.of hg).result

theorem BlindAnswer.refused (e : Refusal) : BlindAnswer fun _ => .refused e := ⟨fun _ _ _ _ _ => rfl, fun _ => rfl⟩

theorem BlindAnswer.ite {e e' : State → Host.Outcome State Fault Refusal} (b : State → Bool) (he : BlindAnswer e)
    (he' : BlindAnswer e')
    (hb : (fun x y z s => (b (orFlags x y z s), b (eraseGhosts s))) = fun _ _ _ s => (b s, b s)) :
    BlindAnswer fun s => if b s then e s else e' s := by
  have hall := fun x y z s => congrFun (congrFun (congrFun (congrFun hb x) y) z) s
  simp only [Prod.mk.injEq] at hall
  refine ⟨fun x y z s hs => ?_, fun s => ?_⟩
  · rw [(hall x y z s).1]
    split
    · exact he.flags x y z s hs
    · exact he'.flags x y z s hs
  · rw [(hall true true true s).2]
    split
    · exact he.ghosts s
    · exact he'.ghosts s

theorem ifInitialised_blind {f : State → Run} (c : Chan) (hf : Blind f) :
    BlindAnswer fun s => ifInitialised c s (f s) :=
  hf.result.ite (fun s => (s.drv c).inited) (.refused _) (by cases c <;> rfl)

theorem ifUninitialised_blind {e : State → Host.Outcome State Fault Refusal} (c : Chan) (he : BlindAnswer e) :
    BlindAnswer fun s => ifUninitialised c s (e s) :=
  (BlindAnswer.refused _).ite (fun s => (s.drv c).inited)
    ((BlindAnswer.refused _).ite (fun s => (s.line c).started) he (by cases c <;> rfl)) (by cases c <;> rfl)

theorem ifSessionOpen_blind {f : State → Run} (hf : Blind f) : BlindAnswer fun s => ifSessionOpen s (f s) :=
  (ifInitialised_blind .ch2 hf).ite (fun s => s.drv1.inited) (.refused _) rfl

theorem ifSessionNew_blind {f : State → Run} (hf : Blind f) : BlindAnswer fun s => ifSessionNew s (f s) :=
  ifUninitialised_blind .ch1 (ifUninitialised_blind .ch2 hf.result)

theorem encodeOp_blind (d : Nibble) : BlindUpdate (encodeOp d) := .of_eq rfl

theorem execLmpPlay_blind (w : Byte) : BlindAnswer (execLmpPlay w) := by
  unfold execLmpPlay
  by_cases h : markCount w ≤ 5
  · simpa only [if_pos h] using (playWord_blind w).result
  · simpa only [if_neg h] using BlindAnswer.refused _

/-- No instruction reads a flag or a ghost. -/
theorem exec_blind (i : Instr) : BlindAnswer (exec i) := by
  cases i with
  | ksReaddigit => exact readDigit_blind.result
  | ceEncrypt d q =>
    have h : BlindUpdate (encryptOp d q) := .of_eq rfl
    exact h.next
  | meEncode d => exact (encodeOp_blind d).next
  | dcdInitializeCh1 => exact ifUninitialised_blind .ch1 (initDisplay_blind .ch1).result
  | dcdInitializeCh2 => exact ifUninitialised_blind .ch2 (initDisplay_blind .ch2).result
  | dcdSendbyteCh1 b => exact ifInitialised_blind .ch1 (sendByte_blind .ch1 b id)
  | dcdSendbyteCh2 b => exact ifInitialised_blind .ch2 (sendByte_blind .ch2 b id)
  | dcdSendnibbleCh1 n rs => exact ifInitialised_blind .ch1 (sendNibble_blind .ch1 n rs id)
  | dcdSendnibbleCh2 n rs => exact ifInitialised_blind .ch2 (sendNibble_blind .ch2 n rs id)
  | dcdWritecommandCh1 b => exact ifInitialised_blind .ch1 (writeCommand_blind .ch1 b)
  | dcdWritecommandCh2 b => exact ifInitialised_blind .ch2 (writeCommand_blind .ch2 b)
  | dcdWritecharCh1 b => exact ifInitialised_blind .ch1 (writeChar_blind .ch1 b)
  | dcdWritecharCh2 b => exact ifInitialised_blind .ch2 (writeChar_blind .ch2 b)
  | dcdClearCh1 => exact ifInitialised_blind .ch1 (clearDisplay_blind .ch1)
  | dcdClearCh2 => exact ifInitialised_blind .ch2 (clearDisplay_blind .ch2)
  | dcdMovecursorCh1 o => exact ifInitialised_blind .ch1 (moveCursor_blind .ch1 o)
  | dcdMovecursorCh2 o => exact ifInitialised_blind .ch2 (moveCursor_blind .ch2 o)
  | dcdDisplayoffCh1 => exact ifInitialised_blind .ch1 (displayOff_blind .ch1)
  | dcdDisplayoffCh2 => exact ifInitialised_blind .ch2 (displayOff_blind .ch2)
  | lmpPlay w => exact execLmpPlay_blind w
  | scStart => exact ifSessionNew_blind startSession_blind
  | scIterate => exact ifSessionOpen_blind iterateSession_blind
  | scTerminate => exact ifSessionOpen_blind terminateSession_blind
  | scRun => exact ifSessionNew_blind runSession_blind
  | dcClear c => exact ifInitialised_blind c ((clearCommand_blind c).andThen (setCursor_finish_blind c 0))
  | dcHome c => exact ifInitialised_blind c ((homeCommand_blind c).andThen (setCursor_finish_blind c 0))
  | dcSetcursor c o => exact ifInitialised_blind c (moveCursor_blind c o)
  | dcDisplayoff c => exact ifInitialised_blind c (displayOff_blind c)
  | dcWritechar c b => exact ifInitialised_blind c (writeChar_blind c b)
  | bfCommand c n en => exact ifInitialised_blind c (sendFrame_blind c n en false id)
  | bfCharacter c n en => exact ifInitialised_blind c (sendFrame_blind c n en true id)
  | mwDigit0 | mwDigit1 | mwDigit2 | mwDigit3 | mwDigit4 | mwDigit5 | mwDigit6 | mwDigit7 | mwDigit8 | mwDigit9
  | mwEmpty => exact (encodeOp_blind _).next
  | kpSlot0Key0 | kpSlot1Key1 | kpSlot2Key2 | kpSlot3Key3 | kpSlot4Key4 | kpSlot5Key5 | kpSlot6Key6 | kpSlot7Key7
  | kpSlot8Key8 | kpSlot9Key9 | kpSlot10KeyA | kpSlot11KeyB | kpSlot12KeyC | kpSlot13KeyD | kpSlot14KeyStar
  | kpSlot15KeyHash => exact (slotPattern_blind _).result

/-- Settles O57: the flags' half of `exec_blind`. -/
theorem flagsAreNeverRead : Obligations.FlagsAreNeverRead := fun s i x y z hs => (exec_blind i).flags x y z s hs

/-! ### The walk and the step -/

/-- An answer whose next state depends on the ghosts in the ghosts alone. -/
def IgnoresGhosts (e : State → Host.Outcome State Fault Refusal) : Prop :=
  ∀ s, mapNext eraseGhosts (e (eraseGhosts s)) = mapNext eraseGhosts (e s)

theorem IgnoresGhosts.congr {e : State → Host.Outcome State Fault Refusal} (he : IgnoresGhosts e) {s s' : State}
    (hs : eraseGhosts s = eraseGhosts s') : mapNext eraseGhosts (e s) = mapNext eraseGhosts (e s') := by
  rw [← he s, hs, he s']

/-- An answer may depend on anything but the ghosts. -/
theorem IgnoresGhosts.read {α : Type} (a : State → α) (ha : (fun s => a (eraseGhosts s)) = a)
    {F : α → State → Host.Outcome State Fault Refusal} (hF : ∀ v, IgnoresGhosts (F v)) :
    IgnoresGhosts fun s => F (a s) s := fun s => by
  have h : a (eraseGhosts s) = a s := congrFun ha s
  simp only [h]
  exact hF _ s

theorem IgnoresGhosts.next {g : State → State} (hg : BlindUpdate g) : IgnoresGhosts fun s => .next (g s) :=
  hg.next.ghosts

/-- Two operations, the second performed from the state the first answers. -/
theorem IgnoresGhosts.bind {e g : State → Host.Outcome State Fault Refusal} (he : IgnoresGhosts e)
    (hg : IgnoresGhosts g) : IgnoresGhosts fun s =>
      match e s with
      | .next t => g t
      | .fault x => .fault x
      | .refused x => .refused x := fun s => by
  have h := he s
  revert h
  dsimp only
  cases e (eraseGhosts s) <;> cases e s <;> intro h
  case next.next => exact hg.congr (Host.Outcome.next.inj h)
  case fault.fault => exact h
  case refused.refused => exact h
  all_goals cases h

theorem performAfter_ignores {e : State → Host.Outcome State Fault Refusal} {f : State → Run} (he : IgnoresGhosts e)
    (hf : Blind f) : IgnoresGhosts fun s => performAfter (e s) f :=
  have hthen : BlindAnswer fun t => if t.free then (f t).result else .next t :=
    hf.result.ite State.free Blind.done.result rfl
  he.bind hthen.ghosts

theorem whenReturned_ignores {e : State → Host.Outcome State Fault Refusal} {g : State → State}
    (he : IgnoresGhosts e) (hg : BlindUpdate g) : IgnoresGhosts fun s => whenReturned (e s) g :=
  performAfter_ignores he (.of hg)

theorem checkPhase_blind : BlindUpdate checkPhase :=
  .ite (fun s => s.rem = 0) rfl (setSc_blind .off1)
    (.ite (fun s => s.cnt = 4) rfl (setSc_blind .wclr1) (setSc_blind .read))

theorem afterMark_blind : BlindUpdate afterMark :=
  have hnext : BlindUpdate fun s => { s with scMi := s.scMi + 1 } := .of_eq rfl
  .ite (fun s => s.scMi.toNat + 1 < markCount s.mw) rfl hnext (setSc_blind .play)

theorem walkMark_ignores : IgnoresGhosts walkMark :=
  .read (fun s => (s.scMi.toNat, s.mw)) rfl
    (F := fun p s => if p.1 < markCount p.2 then
      whenReturned (exec (.dcdWritecharCh2 (markChar (markAt p.2 p.1))) s) afterMark else .next (setSc .play s))
    fun p => by
      split
      · exact whenReturned_ignores (exec_blind _).ghosts afterMark_blind
      · exact .next (setSc_blind .play)

theorem walkCipher_ignores : IgnoresGhosts walkCipher :=
  have hlatch : BlindUpdate latchEncrypted := .of_eq rfl
  .read (fun s => (s.dig, s.pos)) rfl fun p => whenReturned_ignores (exec_blind (.ceEncrypt p.1 p.2)).ghosts hlatch

theorem walkEncode_ignores : IgnoresGhosts fun s => walkEncode (walkCipher s) :=
  have hlatch : BlindUpdate fun u => setSc .ch1pos (latchMorse u) := .of_eq rfl
  walkCipher_ignores.bind
    (.read (fun t => t.enc) rfl fun d => whenReturned_ignores (exec_blind (.meEncode d)).ghosts hlatch)

/-- No phase of the walk reads a ghost. -/
theorem walk_ignores : IgnoresGhosts walk := by
  have operation : ∀ (i : Instr) (ph : ScPhase), IgnoresGhosts fun s => whenReturned (exec i s) (setSc ph) :=
    fun i ph => whenReturned_ignores (exec_blind i).ghosts (setSc_blind ph)
  intro s
  have hph : (eraseGhosts s).scPhase = s.scPhase := rfl
  unfold walk
  rw [hph]
  cases s.scPhase with
  | reset => exact IgnoresGhosts.next (setSc_blind .init1) s
  | init1 => exact operation .dcdInitializeCh1 .init2 s
  | init2 => exact operation .dcdInitializeCh2 .check s
  | check => exact IgnoresGhosts.next checkPhase_blind s
  | wclr1 => exact operation .dcdClearCh1 .wclr2 s
  | wclr2 => exact operation .dcdClearCh2 .wsettle s
  | wsettle =>
    have h : IgnoresGhosts fun s => (windowSettle s).result := windowSettle_blind.result.ghosts
    exact whenReturned_ignores h (setSc_blind .read) s
  | read =>
    have h : BlindUpdate leaveRead := .of_eq rfl
    exact whenReturned_ignores (exec_blind .ksReaddigit).ghosts h s
  | cipher => exact walkEncode_ignores s
  | ch1pos =>
    exact IgnoresGhosts.read positionInstr rfl (F := fun i s => whenReturned (exec i s) (setSc .ch1wr))
      (fun i => operation i .ch1wr) s
  | ch1wr =>
    exact IgnoresGhosts.read (fun s => s.dig) rfl
      (F := fun d s => whenReturned (exec (.dcdWritecharCh1 (digitChar d)) s) (setSc .ch2clr))
      (fun _ => operation _ .ch2clr) s
  | ch2clr => exact operation .dcdClearCh2 .ch2dig s
  | ch2dig =>
    have h : BlindUpdate fun t => setSc .ch2mrk { t with scMi := 0 } := .of_eq rfl
    exact IgnoresGhosts.read (fun s => s.enc) rfl
      (F := fun d s =>
        whenReturned (exec (.dcdWritecharCh2 (digitChar d)) s) fun t => setSc .ch2mrk { t with scMi := 0 })
      (fun _ => whenReturned_ignores (exec_blind _).ghosts h) s
  | ch2mrk => exact walkMark_ignores s
  | play =>
    exact IgnoresGhosts.read (fun s => s.mw) rfl (F := fun w s => whenReturned (exec (.lmpPlay w) s) (setSc .adv))
      (fun _ => operation _ .adv) s
  | adv =>
    have h : BlindUpdate fun s => setSc .check (advanceCounts s) := .of_eq rfl
    exact IgnoresGhosts.next h s
  | off1 => exact operation .dcdDisplayoffCh1 .off2 s
  | off2 => exact performAfter_ignores (exec_blind .dcdDisplayoffCh2).ghosts haltDone_blind s
  | halt => rfl

/-- The controller takes the digit of its own read. -/
theorem takeDigit_blind : BlindUpdate fun t => if t.scPhase = .read then leaveRead t else t :=
  have hleave : BlindUpdate leaveRead := .of_eq rfl
  have hstay : BlindUpdate fun t => t := .of_eq rfl
  .ite (fun t => t.scPhase = .read) rfl hleave hstay

theorem scanOn_ignores : IgnoresGhosts scanOn := by
  have h := (resumeScan_blind.andThen (.of takeDigit_blind)).result.ghosts
  have heq : scanOn = fun s => ((resumeScan s).andThen fun t =>
      .done (if t.scPhase = .read then leaveRead t else t)).result := by
    funext s
    unfold scanOn
    cases resumeScan s <;> rfl
  rw [heq]
  exact h

theorem performSlot_ignores (c : CallSlot) : IgnoresGhosts (performSlot c) := by
  intro s
  unfold performSlot
  have hfetch : fetchInstr (eraseGhosts s) c = fetchInstr s c := rfl
  rw [hfetch]
  cases fetchInstr s c with
  | ok i => exact (exec_blind i).ghosts { s with slot := none }
  | error e => rfl

/-- Settles O58: what a step does is chosen by no ghost, and each of the things it can do ignores them. -/
theorem ghostsAreNeverRead : Obligations.GhostsAreNeverRead := by
  intro s
  have hwf : (eraseGhosts s).cfg.wf = s.cfg.wf := rfl
  have hrst : (eraseGhosts s).rst = s.rst := rfl
  have hhalted : (eraseGhosts s).halted = s.halted := rfl
  have hstalled : (eraseGhosts s).stalled = s.stalled := rfl
  have hscanning : (eraseGhosts s).scanning = s.scanning := rfl
  have hslot : (eraseGhosts s).slot = s.slot := rfl
  unfold step
  rw [hwf, hrst, hhalted, hstalled, hscanning, hslot]
  cases s.cfg.wf with
  | false => rfl
  | true =>
    cases s.rst with
    | true => rfl
    | false =>
      cases s.halted with
      | true => rfl
      | false =>
        cases s.stalled with
        | true => rfl
        | false =>
          cases s.scanning with
          | true => exact scanOn_ignores s
          | false =>
            cases s.slot with
            | some c => exact performSlot_ignores c s
            | none => exact walk_ignores s

end Sys2Proof.Machine
end

section
/-! What a display holds after an operation on its channel (10_state.md R44). An operation changes the view in a fixed
order, at the ready-waits that complete a command or character; one that does not return has made the first of these
changes, in that order, and no other. -/

namespace Sys2Proof.Machine

open Sys2Proof.Config

/-! ### The changes of the view, in order -/

/-- Changes of a view, one after the other. -/
def applied (vs : List (View → View)) (v : View) : View := vs.foldl (fun x f => f x) v

theorem applied_append (us vs : List (View → View)) (v : View) : applied (us ++ vs) v = applied vs (applied us v) :=
  List.foldl_append

/-- An operation on channel `c` that changes the view by `vs`: by all of them when it returns, by the first of them when
it stops. -/
def Shows (c : Chan) (vs : List (View → View)) (s : State) (r : Run) : Prop :=
  r.Ends (fun t => t.cfg = s.cfg ∧ (t.line c).view = applied vs (s.line c).view)
    fun t => ∃ us, us <+: vs ∧ (t.line c).view = applied us (s.line c).view

theorem Shows.andThen {c : Chan} {vs ws : List (View → View)} {s : State} {r : Run} {f : State → Run}
    (h : Shows c vs s r) (hf : ∀ t, t.cfg = s.cfg → Shows c ws t (f t)) : Shows c (vs ++ ws) s (r.andThen f) := by
  cases r with
  | done t =>
    obtain ⟨hcfg, hview⟩ := h
    refine (hf t hcfg).mono (fun u hu => ⟨hu.1.trans hcfg, ?_⟩) fun u ⟨us, ⟨rest, hrest⟩, hu⟩ =>
      ⟨vs ++ us, ⟨rest, ?_⟩, ?_⟩
    · rw [hu.2, hview, applied_append]
    · rw [List.append_assoc, hrest]
    · rw [hu, hview, applied_append]
  | stop t =>
    obtain ⟨us, ⟨rest, hrest⟩, hview⟩ := h
    exact ⟨us, ⟨rest ++ ws, by rw [← List.append_assoc, hrest]⟩, hview⟩

/-- What follows does not change the view. -/
theorem Shows.andSilent {c : Chan} {vs : List (View → View)} {s : State} {r : Run} {f : State → Run}
    (h : Shows c vs s r) (hf : ∀ t, Shows c [] t (f t)) : Shows c vs s (r.andThen f) := by
  have happ := h.andThen fun t _ => hf t
  rwa [List.append_nil] at happ

/-- A change that leaves the view and the build goes before. -/
theorem Shows.after {c : Chan} {vs : List (View → View)} {s t : State} {r : Run} (hcfg : t.cfg = s.cfg)
    (hview : (t.line c).view = (s.line c).view) (h : Shows c vs t r) : Shows c vs s r := by
  unfold Shows at h ⊢
  rwa [hcfg, hview] at h

theorem Shows.modDrv {c : Chan} {vs : List (View → View)} {s : State} {r : Run} (f : Driver → Driver)
    (h : Shows c vs (s.modDrv c f) r) : Shows c vs s r := h.after (by simp) (by simp)

theorem modDrv_shows (c : Chan) (f : Driver → Driver) (s : State) : Shows c [] s (.done (s.modDrv c f)) :=
  ⟨by simp, by simp [applied]⟩

/-- An event that comes with the change `vs` of the view. -/
theorem resetPoint_shows {c : Chan} {vs : List (View → View)} {s u : State} (hcfg : u.cfg = s.cfg)
    (hview : (u.line c).view = applied vs (s.line c).view) : Shows c vs s (resetPoint u) :=
  resetPoint_ends u (fun k _ => ⟨hcfg, by cases c <;> exact hview⟩) fun _ =>
    ⟨vs, ⟨[], List.append_nil vs⟩, by simpa using hview⟩

theorem sleep_shows (c : Chan) (s : State) (n : Nat) : Shows c [] s (s.sleep n) := by
  have hbegin : Shows c [] s (resetPoint (s.beginSleep n)) := resetPoint_shows rfl (by cases c <;> rfl)
  exact hbegin.andSilent fun t => ⟨rfl, by cases c <;> rfl⟩

/-- A ready-wait changes the view where the flag is seen, and not otherwise. -/
theorem readyWait_shows {c : Chan} {v : View → View} {vs : List (View → View)} (hv : ∀ x, v x = applied vs x)
    (s : State) : Shows c vs s (readyWait c v s) := by
  have hnone : ∀ t : State, (t.line c).view = (s.line c).view → ∃ us, us <+: vs ∧
      (t.line c).view = applied us (s.line c).view := fun t ht => ⟨[], ⟨vs, rfl⟩, ht⟩
  rcases readyWait_cases c v s with ⟨w, r, -, -, h⟩ | ⟨-, -, h⟩ | ⟨n, -, h⟩ <;> rw [h]
  · refine resetPoint_shows ?_ ?_
    · simp [State.readySeen]
    · rw [← hv]
      cases c <;> simp [State.readySeen, State.line, State.modLine, State.modDrv, State.emit]
  · exact hnone s rfl
  · refine Run.Ends.andThen (P := fun t => (t.line c).view = (s.line c).view)
      (resetPoint_ends _ (fun k _ => ?_) fun _ => hnone _ ?_) fun t ht => hnone t.halt ?_
    · cases c <;> rfl
    · cases c <;> rfl
    · rw [← ht]; cases c <;> rfl

theorem sendByte_shows {c : Chan} (b : Byte) {v : View → View} {vs : List (View → View)} (hv : ∀ x, v x = applied vs x)
    (s : State) : Shows c vs s (sendByte c b v s) := by
  have hrequest : Shows c [] s (writeData c b s) :=
    resetPoint_shows (by simp [State.requestData]) (by simp [State.requestData, applied])
  exact hrequest.andThen fun t _ => readyWait_shows hv t

theorem sendFrame_shows {c : Chan} (n : Nibble) (en rs : Bool) {v : View → View} {vs : List (View → View)}
    (hv : ∀ x, v x = applied vs x) (s : State) : Shows c vs s (sendFrame c n en rs v s) :=
  ((sendByte_shows _ hv s).andSilent fun t => sleep_shows c t _).andSilent fun t => modDrv_shows c _ t

theorem sendNibble_shows {c : Chan} (n : Nibble) (rs : Bool) {v : View → View} {vs : List (View → View)}
    (hv : ∀ x, v x = applied vs x) (s : State) : Shows c vs s (sendNibble c n rs v s) :=
  (sendFrame_shows (vs := []) n true rs (fun _ => rfl) s).andThen fun t _ => sendFrame_shows n false rs hv t

/-- The display receives the byte with the fourth frame (43_display_channel_driver.md R168). -/
theorem transfer_shows (c : Chan) (rs : Bool) (b : Byte) (s : State) :
    Shows c [View.receive s.cfg rs b] s (transfer c rs b s) := by
  have hhigh : Shows c [] s (sendNibble c (highNibble b) rs id (beginTransfer c rs b s)) :=
    .modDrv _ (sendNibble_shows _ rs (fun _ => rfl) _)
  refine hhigh.andThen fun t ht => sendNibble_shows _ rs (fun x => ?_) t
  rw [ht]
  rfl

theorem finish_shows (c : Chan) (s : State) : Shows c [] s (finish c s) := .modDrv _ (modDrv_shows c _ _)

theorem setCursor_finish_shows (c : Chan) (k : BitVec 3) (s : State) : Shows c [] s (finish c (setCursor c k s)) :=
  .modDrv _ (finish_shows c _)

theorem writeCommand_shows (c : Chan) (b : Byte) (s : State) :
    Shows c [View.receive s.cfg false b] s (writeCommand c b s) :=
  (transfer_shows c false b s).andSilent (finish_shows c)

theorem writeChar_shows (c : Chan) (b : Byte) (s : State) :
    Shows c [View.receive s.cfg true b] s (writeChar c b s) :=
  (transfer_shows c true b s).andSilent fun t => setCursor_finish_shows c _ t

theorem moveCursor_shows (c : Chan) (o : BitVec 2) (s : State) :
    Shows c [View.receive s.cfg false (cursorCommand s.cfg o)] s (moveCursor c o s) :=
  (transfer_shows c false _ s).andSilent (setCursor_finish_shows c _)

/-- DCD.CLEAR after its clear command. -/
def afterClearCommand (c : Chan) (t : State) : Run :=
  ((transfer c false t.cfg.cmdHome t).andThen fun u => (setPhase c .settle u).sleep u.cfg.tClearSettle).andThen fun u =>
    finish c (setCursor c 0 u)

theorem clearDisplay_eq (c : Chan) (s : State) :
    clearDisplay c s = (transfer c false s.cfg.cmdClear s).andThen (afterClearCommand c) := by
  unfold clearDisplay afterClearCommand
  simp only [Run.andThen_assoc]

theorem afterClearCommand_shows (c : Chan) (s : State) :
    Shows c [View.receive s.cfg false s.cfg.cmdHome] s (afterClearCommand c s) :=
  ((transfer_shows c false _ s).andSilent fun _ => .modDrv _ (sleep_shows c _ _)).andSilent
    (setCursor_finish_shows c 0)

theorem clearDisplay_shows (c : Chan) (s : State) :
    Shows c [View.receive s.cfg false s.cfg.cmdClear, View.receive s.cfg false s.cfg.cmdHome] s (clearDisplay c s) := by
  rw [clearDisplay_eq]
  exact (transfer_shows c false _ s).andThen fun t ht => ht ▸ afterClearCommand_shows c t

theorem sendRaw_shows (c : Chan) (b : Byte) (s : State) : Shows c [] s (sendRaw c b s) :=
  (sendByte_shows b (fun _ => rfl) s).andSilent fun t => sleep_shows c t _

theorem sendPairs_shows (c : Chan) (ps : List (Byte × Byte)) (j : Nat) (s : State) :
    Shows c [] s (sendPairs c ps j s) := by
  induction ps generalizing j s with
  | nil => exact ⟨rfl, rfl⟩
  | cons p ps ih =>
    have hfirst : Shows c [] s (sendRaw c p.1 (setSeq c j s)) := .modDrv _ (sendRaw_shows c p.1 _)
    exact (hfirst.andSilent (sendRaw_shows c p.2)).andSilent (ih (j + 1))

/-- DCD.INITIALIZE up to the end of its sequence. -/
def beforeClear (c : Chan) (s : State) : Run :=
  ((startBus c s).andThen (addressBus c)).andThen fun t => sendPairs c t.cfg.initSeq 0 (setPhase c .seq t)

theorem initDisplay_eq (c : Chan) (s : State) :
    initDisplay c s = (beforeClear c s).andThen fun t => clearDisplay c (markInitialised c t) := rfl

theorem beforeClear_shows (c : Chan) (s : State) : Shows c [] s (beforeClear c s) := by
  have hstart : Shows c [] s (startBus c s) := by
    have hrequest : Shows c [] s (writeStart c (setPhase c .start s)) :=
      resetPoint_shows (by simp [State.requestStart, setPhase]) (by simp [State.requestStart, setPhase, applied])
    exact hrequest.andSilent (readyWait_shows fun _ => rfl)
  have haddress : ∀ t, Shows c [] t (addressBus c t) := fun t => by
    have hrequest : Shows c [] t (writeAddr c (busAddr t.cfg c) (setPhase c .addr t)) :=
      resetPoint_shows (by simp [State.requestAddr, setPhase]) (by simp [State.requestAddr, setPhase, applied])
    exact hrequest.andSilent (readyWait_shows fun _ => rfl)
  exact (hstart.andSilent haddress).andSilent fun t => .modDrv _ (sendPairs_shows c _ 0 _)

/-- The display is switched on once the sequence has been sent (43_display_channel_driver.md R170). -/
theorem initDisplay_shows (c : Chan) (s : State) :
    Shows c [fun v => { v with on := true }, View.receive s.cfg false s.cfg.cmdClear,
      View.receive s.cfg false s.cfg.cmdHome] s (initDisplay c s) := by
  have hmark : ∀ t, Shows c [fun v => { v with on := true }] t (.done (markInitialised c t)) := fun t =>
    ⟨by simp [markInitialised], by simp [markInitialised, applied]⟩
  exact (beforeClear_shows c s).andThen fun t ht => (hmark t).andThen (f := clearDisplay c) fun u hu => by
    rw [← ht, ← hu]
    exact clearDisplay_shows c u

/-! ### The positions -/

/-- The state an operation answers shows its first changes. -/
theorem Shows.result {c : Chan} {vs : List (View → View)} {s t : State} {r : Run} (h : Shows c vs s r)
    (ht : r.result = .next t) : ∃ us, us <+: vs ∧ (t.line c).view = applied us (s.line c).view := by
  rcases Run.Ends.result h ht with ⟨-, hview⟩ | hstop
  · exact ⟨vs, ⟨[], List.append_nil vs⟩, hview⟩
  · exact hstop

/-- A change of the view leaves every position or empties the display. -/
def KeepsOrEmpties (f : View → View) : Prop := ∀ v, (f v).text = v.text ∨ (f v).text = []

theorem applied_text {vs : List (View → View)} (h : ∀ f ∈ vs, ∀ v, (f v).text = v.text) (v : View) :
    (applied vs v).text = v.text := by
  induction vs generalizing v with
  | nil => rfl
  | cons f vs ih =>
    have hrest := ih (fun g hg => h g (List.mem_cons_of_mem f hg)) (f v)
    exact hrest.trans (h f List.mem_cons_self v)

theorem applied_keepsOrEmpties {vs : List (View → View)} (h : ∀ f ∈ vs, KeepsOrEmpties f) :
    KeepsOrEmpties (applied vs) := by
  induction vs with
  | nil => exact fun v => .inl rfl
  | cons f vs ih =>
    intro v
    rcases ih (fun g hg => h g (List.mem_cons_of_mem f hg)) (f v) with hrest | hrest
    · exact (h f List.mem_cons_self v).imp hrest.trans hrest.trans
    · exact .inr hrest

/-- A command other than clear leaves every position (10_state.md R44). -/
theorem View.command_text {p : Params} {b : Byte} (h : b ≠ p.cmdClear) (v : View) : (v.command p b).text = v.text := by
  unfold View.command
  rw [if_neg h]
  split
  · rfl
  · split
    · rfl
    · split <;> rfl

theorem View.command_clear (p : Params) (v : View) : (v.command p p.cmdClear).text = [] := by simp [View.command]

theorem receive_command_keepsOrEmpties (p : Params) (b : Byte) : KeepsOrEmpties (View.receive p false b) := by
  intro v
  by_cases h : b = p.cmdClear
  · subst h; exact .inr (v.command_clear p)
  · exact .inl (v.command_text h)

/-- The clear command differs from the other commands of a build the spec allows (30_encoding.md R92). -/
theorem cmdClear_distinct {p : Params} (hwf : p.wf = true) :
    p.cmdHome ≠ p.cmdClear ∧ p.cmdDisplayOff ≠ p.cmdClear ∧ ∀ o, cursorCommand p o ≠ p.cmdClear := by
  obtain ⟨-, -, -, -, -, -, -, -, -, hok⟩ := checks_of_wf hwf
  have hnotMem := (List.nodup_cons.1 (of_decide_eq_true hok)).1
  simp only [List.mem_cons, List.not_mem_nil, or_false, not_or] at hnotMem
  obtain ⟨hhome, hoff, h0, h1, h2, h3⟩ := hnotMem
  refine ⟨Ne.symm hhome, Ne.symm hoff, fun o => ?_⟩
  have hcases : o = 0 ∨ o = 1 ∨ o = 2 ∨ o = 3 := by revert o; decide
  rcases hcases with rfl | rfl | rfl | rfl
  exacts [Ne.symm h0, Ne.symm h1, Ne.symm h2, Ne.symm h3]

/-- Operations that store nothing change no position. -/
theorem Shows.read_eq {c : Chan} {vs : List (View → View)} {s t : State} {r : Run} (h : Shows c vs s r)
    (ht : r.result = .next t) (hvs : ∀ f ∈ vs, ∀ v, (f v).text = v.text) (a : Nat) :
    (t.line c).view.text.read a = (s.line c).view.text.read a := by
  obtain ⟨us, hus, hview⟩ := h.result ht
  rw [hview, applied_text fun f hf => hvs f (hus.subset hf)]

/-- A command other than clear changes no position. -/
theorem Shows.read_eq_of_command {c : Chan} {b : Byte} {s t : State} {r : Run}
    (h : Shows c [View.receive s.cfg false b] s r) (hb : b ≠ s.cfg.cmdClear) (ht : r.result = .next t) (a : Nat) :
    (t.line c).view.text.read a = (s.line c).view.text.read a :=
  h.read_eq ht (fun f hf v => by rw [List.mem_singleton.1 hf]; exact v.command_text hb) a

/-- Operations made of commands leave every position or empty the display. -/
theorem Shows.read_eq_or_none {c : Chan} {vs : List (View → View)} {s t : State} {r : Run} (h : Shows c vs s r)
    (ht : r.result = .next t) (hvs : ∀ f ∈ vs, KeepsOrEmpties f) :
    (∀ a, (t.line c).view.text.read a = (s.line c).view.text.read a) ∨ ∀ a, (t.line c).view.text.read a = none := by
  obtain ⟨us, hus, hview⟩ := h.result ht
  rcases applied_keepsOrEmpties (fun f hf => hvs f (hus.subset hf)) (s.line c).view with htext | htext
  · exact .inl fun a => by rw [hview, htext]
  · exact .inr fun a => by rw [hview, htext]; rfl

/-- A character changes the position at the display's cursor and no other, and does so when its waits are answered
(10_state.md R44). -/
theorem writeChar_positions {c : Chan} {b : Byte} {s t : State} (ht : (writeChar c b s).result = .next t) :
    (∀ a, a ≠ (s.line c).view.vcur → (t.line c).view.text.read a = (s.line c).view.text.read a) ∧
      (s.rstIn = none → s.answers c 4 = true → (t.line c).view.text.read (s.line c).view.vcur = some b) := by
  have hshows := writeChar_shows c b s
  refine ⟨fun a ha => ?_, fun hr hanswers => ?_⟩
  · obtain ⟨us, ⟨rest, hrest⟩, hview⟩ := hshows.result ht
    rcases us with _ | ⟨f, us⟩
    · rw [hview]; rfl
    · obtain ⟨rfl, hnil⟩ := List.cons.inj hrest
      rw [(List.append_eq_nil_iff.1 hnil).1] at hview
      rw [hview]
      exact Memory.read_write_other _ _ _ _ ha
  · have hdone := writeChar_answered c b s hanswers hr
    rw [hdone] at hshows ht
    cases ht
    rw [hshows.2]
    exact Memory.read_write_same _ _ _

/-! ### A clear whose command is taken -/

/-- The clear command empties the display when its four waits are answered, and it stays empty under further
commands. -/
theorem clearCommand_empties {c : Chan} {s t : State} {f : State → Run} {ws : State → List (View → View)}
    (hr : s.rstIn = none) (hanswers : s.answers c 4 = true) (hf : ∀ u, Shows c (ws u) u (f u))
    (hws : ∀ u, ∀ g ∈ ws u, KeepsOrEmpties g)
    (ht : ((transfer c false s.cfg.cmdClear s).andThen f).result = .next t) (a : Nat) :
    (t.line c).view.text.read a = none := by
  have hclear := transfer_shows c false s.cfg.cmdClear s
  rw [transfer_answered c false s.cfg.cmdClear s hanswers hr] at hclear ht
  have hempty : ∀ x, ((View.receive s.cfg false s.cfg.cmdClear) x).text = [] := View.command_clear s.cfg
  rcases (hf _).read_eq_or_none ht (hws _) with hread | hread
  · rw [hread a, hclear.2]
    exact congrArg (fun m => Memory.read m a) (hempty _)
  · exact hread a

theorem clearDisplay_empties {c : Chan} {s t : State} (hr : s.rstIn = none) (hanswers : s.answers c 4 = true)
    (ht : (clearDisplay c s).result = .next t) (a : Nat) : (t.line c).view.text.read a = none := by
  rw [clearDisplay_eq] at ht
  refine clearCommand_empties hr hanswers (afterClearCommand_shows c) (fun u g hg => ?_) ht a
  rw [List.mem_singleton.1 hg]
  exact receive_command_keepsOrEmpties _ _

/-- The start request when the flag answers. -/
theorem startBus_answered (c : Chan) (s : State) (h : s.answers c 1 = true) (hr : s.rstIn = none) :
    startBus c s = .done ((channelAfter c 1 [.busStart c, .busReady c] 0
      (fun d => { d with phase := .start, busReq := .none }) id s).modLine c fun l => { l with started := true }) := by
  have hr' : ((setPhase c .start s).requestStart c).rstIn = none := by simpa [State.requestStart, setPhase] using hr
  have h' : ((setPhase c .start s).requestStart c).answers c 1 = true := by
    simpa [State.answers, State.requestStart, setPhase] using h
  unfold startBus writeStart
  rw [resetPoint_none hr', Run.done_andThen, readyWait_answered _ _ _ h' hr']
  cases c <;>
    simp [State.readySeen, State.requestStart, setPhase, channelAfter, State.modDrv, State.modLine, State.line,
      State.emit, Ready.after, Ready.waited]

/-- The address request when the flag answers. -/
theorem addressBus_answered (c : Chan) (s : State) (h : s.answers c 1 = true) (hr : s.rstIn = none) :
    addressBus c s = .done (channelAfter c 1 [.busAddr c (busAddr s.cfg c), .busReady c] 0
      (fun d => { d with phase := .addr, busReq := .none, busByte := busAddr s.cfg c }) id s) := by
  have hr' : ((setPhase c .addr s).requestAddr c (busAddr s.cfg c)).rstIn = none := by
    simpa [State.requestAddr, setPhase] using hr
  have h' : ((setPhase c .addr s).requestAddr c (busAddr s.cfg c)).answers c 1 = true := by
    simpa [State.answers, State.requestAddr, setPhase] using h
  unfold addressBus writeAddr
  rw [resetPoint_none hr', Run.done_andThen, readyWait_answered _ _ _ h' hr']
  cases c <;>
    simp [State.readySeen, State.requestAddr, setPhase, channelAfter, State.modDrv, State.modLine, State.line,
      State.emit, Ready.after, Ready.waited]

theorem answers_started (c : Chan) (n : Nat) (s : State) :
    (s.modLine c fun l => { l with started := true }).answers c n = s.answers c n := by
  simp [State.answers]

/-- Start, address and the 24 bytes of the sequence return when their 26 waits are answered; the answers after them are
still to come. -/
theorem beforeClear_answered {c : Chan} {s : State} {n : Nat} (hwf : s.cfg.wf = true) (hr : s.rstIn = none)
    (h : s.answers c (26 + n) = true) :
    ∃ t, beforeClear c s = .done t ∧ t.rstIn = none ∧ t.answers c n = true := by
  obtain ⟨-, -, -, -, -, -, -, hok, -⟩ := checks_of_wf hwf
  have hlength : s.cfg.initSeq.length = 12 := by simpa [Params.initSeqOk] using hok
  have hsplit : 26 + n = 1 + (1 + (24 + n)) := by omega
  rw [hsplit] at h
  unfold beforeClear
  rw [startBus_answered c s (answers_le c 1 _ s h) hr, Run.done_andThen]
  have h1 := answers_channelAfter c 1 _ [.busStart c, .busReady c] 0
    (fun d => { d with phase := .start, busReq := .none }) id s h
  rw [← answers_started] at h1
  rw [addressBus_answered c _ (answers_le c 1 _ _ h1) (by simpa using hr), Run.done_andThen]
  have h2 := answers_channelAfter c 1 _ [.busAddr c (busAddr s.cfg c), .busReady c] 0
    (fun d => { d with phase := .addr, busReq := .none, busByte := busAddr s.cfg c }) id _ h1
  rw [← answers_modDrv c c _ fun d => { d with phase := .seq }] at h2
  simp only [modLine_cfg, channelAfter_cfg]
  cases hseq : s.cfg.initSeq with
  | nil => rw [hseq] at hlength; cases hlength
  | cons p ps =>
    rw [hseq] at hlength
    have hps : 2 * (ps.length + 1) = 24 := by simp only [List.length_cons] at hlength; omega
    rw [← hps] at h2
    unfold setPhase
    rw [sendPairs_answered c p ps 0 _ (answers_le c _ n _ h2) (by simpa using hr)]
    refine ⟨_, rfl, by simpa using hr, ?_⟩
    rw [answers_sleptLast]
    exact answers_channelAfter c _ n _ _ _ _ _ h2

theorem initDisplay_empties {c : Chan} {s t : State} (hwf : s.cfg.wf = true) (hr : s.rstIn = none)
    (hanswers : s.answers c 30 = true) (ht : (initDisplay c s).result = .next t) (a : Nat) :
    (t.line c).view.text.read a = none := by
  obtain ⟨u, hu, hru, hanswersU⟩ := beforeClear_answered (n := 4) hwf hr hanswers
  rw [initDisplay_eq, hu, Run.done_andThen] at ht
  refine clearDisplay_empties ?_ ?_ ht a
  · simpa [markInitialised] using hru
  · simpa [State.answers, markInitialised] using hanswersU

/-! ### The display operations -/

theorem exec_char_positions {i : Instr} {c : Chan} {b : Byte} {s t : State}
    (hi : (c, i) ∈ [(Chan.ch1, Instr.dcdWritecharCh1 b), (.ch2, .dcdWritecharCh2 b), (c, .dcWritechar c b)])
    (h : exec i s = .next t) :
    (∀ a, a ≠ (s.line c).view.vcur → (t.line c).view.text.read a = (s.line c).view.text.read a) ∧
      (s.rstIn = none → s.answers c 4 = true → (t.line c).view.text.read (s.line c).view.vcur = some b) := by
  simp only [List.mem_cons, List.not_mem_nil, or_false, Prod.mk.injEq, true_and] at hi
  rcases hi with ⟨rfl, rfl⟩ | ⟨rfl, rfl⟩ | rfl
  all_goals exact writeChar_positions (ifInitialised_next h)

/-- The forms that store nothing: the pieces of a byte, and the commands other than clear. -/
theorem exec_silent_positions {i : Instr} {c : Chan} {s t : State} {n : Nibble} {en rs : Bool} {o : BitVec 2}
    {b b' : Byte} (hwf : s.cfg.wf = true) (hc : displayChan i = some c) (hb : b ≠ s.cfg.cmdClear)
    (hi : i ∈ [Instr.dcdSendbyteCh1 b', .dcdSendnibbleCh1 n rs, .dcdWritecommandCh1 b, .dcdMovecursorCh1 o,
      .dcdDisplayoffCh1, .dcdSendbyteCh2 b', .dcdSendnibbleCh2 n rs, .dcdWritecommandCh2 b, .dcdMovecursorCh2 o,
      .dcdDisplayoffCh2, .dcHome c, .dcSetcursor c o, .dcDisplayoff c, .bfCommand c n en, .bfCharacter c n en])
    (h : exec i s = .next t) (a : Nat) : (t.line c).view.text.read a = (s.line c).view.text.read a := by
  obtain ⟨hhome, hoff, hcursor⟩ := cmdClear_distinct hwf
  have piece : ∀ {d : Chan} {r : Run}, some d = some c → Shows d [] s r → ifInitialised d s r = .next t →
      (t.line c).view.text.read a = (s.line c).view.text.read a := fun hd hr ht => by
    cases hd; exact hr.read_eq (ifInitialised_next ht) (by simp) a
  have command : ∀ {d : Chan} {r : Run} {k : Byte}, some d = some c → k ≠ s.cfg.cmdClear →
      Shows d [View.receive s.cfg false k] s r → ifInitialised d s r = .next t →
      (t.line c).view.text.read a = (s.line c).view.text.read a := fun hd hk hr ht => by
    cases hd; exact hr.read_eq_of_command hk (ifInitialised_next ht) a
  simp only [List.mem_cons, List.not_mem_nil, or_false] at hi
  rcases hi with rfl | rfl | rfl | rfl | rfl | rfl | rfl | rfl | rfl | rfl | rfl | rfl | rfl | rfl | rfl
  · exact piece hc (sendByte_shows b' (fun _ => rfl) s) h
  · exact piece hc (sendNibble_shows n rs (fun _ => rfl) s) h
  · exact command hc hb (writeCommand_shows _ b s) h
  · exact command hc (hcursor o) (moveCursor_shows _ o s) h
  · exact command hc hoff (writeCommand_shows _ _ s) h
  · exact piece hc (sendByte_shows b' (fun _ => rfl) s) h
  · exact piece hc (sendNibble_shows n rs (fun _ => rfl) s) h
  · exact command hc hb (writeCommand_shows _ b s) h
  · exact command hc (hcursor o) (moveCursor_shows _ o s) h
  · exact command hc hoff (writeCommand_shows _ _ s) h
  · exact command hc hhome ((transfer_shows c false _ s).andSilent (setCursor_finish_shows c 0)) h
  · exact command hc (hcursor o) (moveCursor_shows _ o s) h
  · exact command hc hoff (writeCommand_shows _ _ s) h
  · exact piece hc (sendFrame_shows n en false (fun _ => rfl) s) h
  · exact piece hc (sendFrame_shows n en true (fun _ => rfl) s) h

/-- A clear leaves every position or empties the display, and the latter once its clear command is taken. -/
def ClearsPositions (c : Chan) (waits : Nat) (s t : State) : Prop :=
  ((∀ a, (t.line c).view.text.read a = (s.line c).view.text.read a) ∨ ∀ a, (t.line c).view.text.read a = none) ∧
    (s.rstIn = none → s.answers c waits = true → ∀ a, (t.line c).view.text.read a = none)

theorem clearDisplay_positions {c : Chan} {s t : State} (ht : (clearDisplay c s).result = .next t) :
    ClearsPositions c 4 s t := by
  refine ⟨(clearDisplay_shows c s).read_eq_or_none ht fun f hf => ?_, fun hr h => clearDisplay_empties hr h ht⟩
  simp only [List.mem_cons, List.not_mem_nil, or_false] at hf
  rcases hf with rfl | rfl <;> exact receive_command_keepsOrEmpties _ _

theorem initDisplay_positions {c : Chan} {s t : State} (hwf : s.cfg.wf = true)
    (ht : (initDisplay c s).result = .next t) : ClearsPositions c 30 s t := by
  refine ⟨(initDisplay_shows c s).read_eq_or_none ht fun f hf => ?_, fun hr h => initDisplay_empties hwf hr h ht⟩
  simp only [List.mem_cons, List.not_mem_nil, or_false] at hf
  rcases hf with rfl | rfl | rfl
  · exact fun v => .inl rfl
  · exact receive_command_keepsOrEmpties _ _
  · exact receive_command_keepsOrEmpties _ _

/-- The clear command alone, and what follows without a further change of the view. -/
theorem clearCommand_positions {c : Chan} {s t : State} {f : State → Run} (hf : ∀ u, Shows c [] u (f u))
    (ht : ((transfer c false s.cfg.cmdClear s).andThen f).result = .next t) : ClearsPositions c 4 s t := by
  refine ⟨((transfer_shows c false _ s).andSilent hf).read_eq_or_none ht fun g hg => ?_, fun hr h =>
    clearCommand_empties hr h hf (fun _ _ hg => nomatch hg) ht⟩
  rw [List.mem_singleton.1 hg]
  exact receive_command_keepsOrEmpties _ _

theorem exec_clear_positions {i : Instr} {c : Chan} {waits : Nat} {s t : State} (hwf : s.cfg.wf = true)
    (hc : displayChan i = some c)
    (hi : (i, waits) ∈ [(Instr.dcdClearCh1, 4), (.dcdClearCh2, 4), (.dcClear c, 4),
      (.dcdWritecommandCh1 s.cfg.cmdClear, 4), (.dcdWritecommandCh2 s.cfg.cmdClear, 4), (.dcdInitializeCh1, 30),
      (.dcdInitializeCh2, 30)]) (h : exec i s = .next t) : ClearsPositions c waits s t := by
  simp only [List.mem_cons, List.not_mem_nil, or_false, Prod.mk.injEq] at hi
  rcases hi with ⟨rfl, rfl⟩ | ⟨rfl, rfl⟩ | ⟨rfl, rfl⟩ | ⟨rfl, rfl⟩ | ⟨rfl, rfl⟩ | ⟨rfl, rfl⟩ | ⟨rfl, rfl⟩
  · cases hc; exact clearDisplay_positions (ifInitialised_next h)
  · cases hc; exact clearDisplay_positions (ifInitialised_next h)
  · exact clearCommand_positions (setCursor_finish_shows c 0) (ifInitialised_next h)
  · cases hc; exact clearCommand_positions (finish_shows _) (ifInitialised_next h)
  · cases hc; exact clearCommand_positions (finish_shows _) (ifInitialised_next h)
  · cases hc; exact initDisplay_positions hwf (ifUninitialised_next h)
  · cases hc; exact initDisplay_positions hwf (ifUninitialised_next h)

/-- Settles O38: the three clauses are those of the character forms, of the forms that store nothing, and of the
clears. -/
theorem displayPositions : Obligations.DisplayPositions := fun _ _ _ _ hwf hc h =>
  ⟨fun _ hi => exec_char_positions hi h, fun _ _ _ _ _ _ hb hi => exec_silent_positions hwf hc hb hi h,
    fun _ hi => exec_clear_positions hwf hc hi h⟩

end Sys2Proof.Machine
end

section
/-! The parameters across a step (20_memory.md R52): no primitive change writes them, and so no step does. -/

namespace Sys2Proof.Machine

/-- An event, and what follows it where `rst` does not cut in: a statement that keeps the parameters keeps them. -/
theorem resetPoint_andThen_cfg (u : State) (f : State → Run) (hf : ∀ t, (f t).state.cfg = t.cfg) :
    ((resetPoint u).andThen f).state.cfg = u.cfg := by
  rcases resetPoint_cases u with ⟨-, h⟩ | ⟨n, -, h⟩ | ⟨-, h⟩ <;> rw [h]
  · exact hf u
  · exact hf _
  · rfl

theorem resetPoint_cfg (u : State) : (resetPoint u).state.cfg = u.cfg := by
  rw [← Run.andThen_done_self (resetPoint u)]
  exact resetPoint_andThen_cfg u .done fun _ => rfl

theorem Prim.cfg {s t : State} (p : Prim s t) : t.cfg = s.cfg := by
  cases p with
  | quiet h => exact h.cfg
  | row v => exact resetPoint_cfg _
  | sample v => exact resetPoint_cfg _
  | led b => exact resetPoint_cfg _
  | sleep n => exact resetPoint_andThen_cfg _ _ fun _ => rfl
  | start c => exact (resetPoint_cfg _).trans (by simp [State.requestStart])
  | addr c a => exact (resetPoint_cfg _).trans (by simp [State.requestAddr])
  | data c b => exact (resetPoint_cfg _).trans (by simp [State.requestData])
  | ready c w r v => exact (resetPoint_cfg _).trans (by simp [State.readySeen])
  | givenUp c n _ => exact resetPoint_andThen_cfg _ _ fun _ => rfl
  | noMatch p => exact resetPoint_cfg _
  | done => exact resetPoint_andThen_cfg _ _ fun _ => rfl

/-- Settles O59: a reset takes the parameters over, and any other step is made of primitive changes. -/
theorem parametersAreConstant : Obligations.ParametersAreConstant := by
  intro s t h
  cases hrst : s.rst with
  | true =>
    rw [step_of_rst (step_build h) hrst] at h
    cases h
    rfl
  | false =>
    exact step_lift (R := fun s t => t.cfg = s.cfg) (fun _ => rfl) (fun _ _ _ hst htu => htu.trans hst)
      (fun _ _ => Prim.cfg) (fun _ => rfl) hrst h

end Sys2Proof.Machine
end

section
/-! What an operation on a display channel is made of (43_display_channel_driver.md), said once: requests on the
channel's bus in the order of 20_memory.md R58, ready-waits, sleeps and register writes. What holds of these and
composes holds of every operation on the channel; that they neither read nor write the other channel (20_memory.md R51,
43_display_channel_driver.md R161) is the first use. -/

namespace Sys2Proof.Machine

open Sys2Proof.Config

/-! ### The parts of an operation on a channel -/

/-- How far the traffic of a channel is (20_memory.md R58): nothing sent; the bus started; the display addressed, from
when on only data is sent. -/
inductive BusStage
  | fresh | begun | addressed

/-- An operation on channel `c` that finds the traffic at one stage and, when it returns, leaves it at another. -/
inductive ChannelOp (c : Chan) : BusStage → BusStage → (State → Run) → Prop
  | done {i : BusStage} : ChannelOp c i i .done
  | andThen {i j k : BusStage} {f g : State → Run} (hf : ChannelOp c i j f) (hg : ChannelOp c j k g) :
    ChannelOp c i k fun s => (f s).andThen g
  /-- the parameters are read -/
  | read {i j : BusStage} {F : Params → State → Run} (hF : ∀ p, ChannelOp c i j (F p)) :
    ChannelOp c i j fun s => F s.cfg s
  /-- registers are written, `d_init` not among them -/
  | write {i : BusStage} (f : Driver → Driver) (hf : ∀ d, (f d).inited = d.inited) :
    ChannelOp c i i fun s => .done (s.modDrv c f)
  | sleep {i : BusStage} (n : Nat) : ChannelOp c i i fun s => s.sleep n
  | wait {i : BusStage} (v : View → View) : ChannelOp c i i (readyWait c v)
  | start : ChannelOp c .fresh .begun (writeStart c)
  | addr : ChannelOp c .begun .addressed fun s => writeAddr c (busAddr s.cfg c) s
  | data (b : Byte) : ChannelOp c .addressed .addressed (writeData c b)
  | mark : ChannelOp c .addressed .addressed fun s => .done (markInitialised c s)

/-- A register write goes before. -/
theorem ChannelOp.after {c : Chan} {i j : BusStage} {f : State → Run} (hf : ChannelOp c i j f) (g : Driver → Driver)
    (hg : ∀ d, (g d).inited = d.inited) : ChannelOp c i j fun s => f (s.modDrv c g) :=
  (ChannelOp.write g hg).andThen hf

theorem sendByte_op (c : Chan) (b : Byte) (v : View → View) : ChannelOp c .addressed .addressed (sendByte c b v) :=
  (ChannelOp.data b).andThen (.wait v)

theorem stepDelay_op (c : Chan) {i : BusStage} : ChannelOp c i i stepDelay :=
  .read (F := fun p s => s.sleep p.tStep) fun p => .sleep p.tStep

theorem sendFrame_op (c : Chan) (n : Nibble) (en rs : Bool) (v : View → View) :
    ChannelOp c .addressed .addressed (sendFrame c n en rs v) :=
  ((ChannelOp.read (F := fun p => sendByte c (frame p n en rs) v) fun _ => sendByte_op c _ v).andThen
    (stepDelay_op c)).andThen (.write _ fun _ => rfl)

theorem sendNibble_op (c : Chan) (n : Nibble) (rs : Bool) (v : View → View) :
    ChannelOp c .addressed .addressed (sendNibble c n rs v) :=
  (sendFrame_op c n true rs id).andThen (sendFrame_op c n false rs v)

theorem transfer_op (c : Chan) (rs : Bool) (b : Byte) : ChannelOp c .addressed .addressed (transfer c rs b) :=
  ((sendNibble_op c (highNibble b) rs id).after (fun d => { d with byte := b, rs := rs, step := 0, phase := .xfer })
    fun _ => rfl).andThen
    (.read (F := fun p => sendNibble c (lowNibble b) rs (View.receive p rs b)) fun _ => sendNibble_op c _ rs _)

theorem finish_op (c : Chan) {i : BusStage} : ChannelOp c i i (finish c) :=
  (ChannelOp.write (fun d => { d with phase := .idle }) fun _ => rfl).after (fun d => { d with phase := .done })
    fun _ => rfl

theorem setCursor_finish_op (c : Chan) (k : BitVec 3) {i : BusStage} :
    ChannelOp c i i fun s => finish c (setCursor c k s) :=
  (finish_op c).after _ fun _ => rfl

/-- The cursor register is counted up by a write of that register alone. -/
theorem countCursor_op (c : Chan) {i : BusStage} :
    ChannelOp c i i fun s => finish c (setCursor c ((s.drv c).cur + 1) s) := by
  have hcount : ∀ s : State, setCursor c ((s.drv c).cur + 1) s = s.modDrv c fun d => { d with cur := d.cur + 1 } := by
    cases c <;> exact fun _ => rfl
  simp only [hcount]
  exact (finish_op c).after _ fun _ => rfl

theorem writeCommand_op (c : Chan) (b : Byte) : ChannelOp c .addressed .addressed (writeCommand c b) :=
  (transfer_op c false b).andThen (finish_op c)

theorem writeChar_op (c : Chan) (b : Byte) : ChannelOp c .addressed .addressed (writeChar c b) :=
  (transfer_op c true b).andThen (countCursor_op c)

theorem moveCursor_op (c : Chan) (o : BitVec 2) : ChannelOp c .addressed .addressed (moveCursor c o) :=
  (ChannelOp.read (F := fun p => transfer c false (cursorCommand p o)) fun _ => transfer_op c false _).andThen
    (setCursor_finish_op c _)

theorem displayOff_op (c : Chan) : ChannelOp c .addressed .addressed (displayOff c) :=
  .read (F := fun p => writeCommand c p.cmdDisplayOff) fun _ => writeCommand_op c _

theorem clearCommand_op (c : Chan) : ChannelOp c .addressed .addressed fun s => transfer c false s.cfg.cmdClear s :=
  .read (F := fun p => transfer c false p.cmdClear) fun _ => transfer_op c false _

theorem homeCommand_op (c : Chan) : ChannelOp c .addressed .addressed fun s => transfer c false s.cfg.cmdHome s :=
  .read (F := fun p => transfer c false p.cmdHome) fun _ => transfer_op c false _

theorem settle_op (c : Chan) {i : BusStage} :
    ChannelOp c i i fun s => (setPhase c .settle s).sleep s.cfg.tClearSettle :=
  .read (F := fun p s => (setPhase c .settle s).sleep p.tClearSettle) fun p =>
    (ChannelOp.sleep p.tClearSettle).after _ fun _ => rfl

theorem clearDisplay_op (c : Chan) : ChannelOp c .addressed .addressed (clearDisplay c) :=
  (((clearCommand_op c).andThen (homeCommand_op c)).andThen (settle_op c)).andThen (setCursor_finish_op c 0)

theorem sendRaw_op (c : Chan) (b : Byte) : ChannelOp c .addressed .addressed (sendRaw c b) :=
  (sendByte_op c b id).andThen (stepDelay_op c)

theorem sendPairs_op (c : Chan) (ps : List (Byte × Byte)) (j : Nat) :
    ChannelOp c .addressed .addressed (sendPairs c ps j) := by
  induction ps generalizing j with
  | nil => exact .done
  | cons p ps ih =>
    have hfirst : ChannelOp c .addressed .addressed fun s => sendRaw c p.1 (setSeq c j s) :=
      (sendRaw_op c p.1).after _ fun _ => rfl
    exact (hfirst.andThen (sendRaw_op c p.2)).andThen (ih (j + 1))

theorem startBus_op (c : Chan) : ChannelOp c .fresh .begun (startBus c) :=
  (ChannelOp.start.after (fun d => { d with phase := .start }) fun _ => rfl).andThen (.wait id)

theorem addressBus_op (c : Chan) : ChannelOp c .begun .addressed (addressBus c) := by
  have haddress := (ChannelOp.addr (c := c)).after (fun d => { d with phase := .addr }) fun _ => rfl
  simp only [modDrv_cfg] at haddress
  exact haddress.andThen (.wait id)

/-- DCD.INITIALIZE takes the traffic of its channel from the first stage to the last (20_memory.md R58). -/
theorem initDisplay_op (c : Chan) : ChannelOp c .fresh .addressed (initDisplay c) := by
  have hpairs : ChannelOp c .addressed .addressed fun s => sendPairs c s.cfg.initSeq 0 (setPhase c .seq s) :=
    .read (F := fun p s => sendPairs c p.initSeq 0 (setPhase c .seq s)) fun p =>
      (sendPairs_op c p.initSeq 0).after _ fun _ => rfl
  exact (((startBus_op c).andThen (addressBus_op c)).andThen hpairs).andThen
    (ChannelOp.mark.andThen (clearDisplay_op c))

/-- Every display operation is an operation on its channel: DCD.INITIALIZE on a channel not initialised, any other on
one that is (43_display_channel_driver.md R163, R170). -/
theorem exec_displayOp {i : Instr} {c : Chan} (hi : displayChan i = some c) :
    (∃ f, ChannelOp c .addressed .addressed f ∧ ∀ s, exec i s = ifInitialised c s (f s)) ∨
      ∀ s, exec i s = ifUninitialised c s (initDisplay c s).result := by
  have operation : ∀ {d : Chan} {f : State → Run}, some d = some c → ChannelOp d .addressed .addressed f →
      (∀ s, exec i s = ifInitialised d s (f s)) →
      (∃ f, ChannelOp c .addressed .addressed f ∧ ∀ s, exec i s = ifInitialised c s (f s)) ∨
        ∀ s, exec i s = ifUninitialised c s (initDisplay c s).result := fun hd hf he => by
    cases hd; exact .inl ⟨_, hf, he⟩
  cases i with
  | dcdInitializeCh1 => cases hi; exact .inr fun _ => rfl
  | dcdInitializeCh2 => cases hi; exact .inr fun _ => rfl
  | dcdSendbyteCh1 b => exact operation hi (sendByte_op .ch1 b id) fun _ => rfl
  | dcdSendbyteCh2 b => exact operation hi (sendByte_op .ch2 b id) fun _ => rfl
  | dcdSendnibbleCh1 n rs => exact operation hi (sendNibble_op .ch1 n rs id) fun _ => rfl
  | dcdSendnibbleCh2 n rs => exact operation hi (sendNibble_op .ch2 n rs id) fun _ => rfl
  | dcdWritecommandCh1 b => exact operation hi (writeCommand_op .ch1 b) fun _ => rfl
  | dcdWritecommandCh2 b => exact operation hi (writeCommand_op .ch2 b) fun _ => rfl
  | dcdWritecharCh1 b => exact operation hi (writeChar_op .ch1 b) fun _ => rfl
  | dcdWritecharCh2 b => exact operation hi (writeChar_op .ch2 b) fun _ => rfl
  | dcdClearCh1 => exact operation hi (clearDisplay_op .ch1) fun _ => rfl
  | dcdClearCh2 => exact operation hi (clearDisplay_op .ch2) fun _ => rfl
  | dcdMovecursorCh1 o => exact operation hi (moveCursor_op .ch1 o) fun _ => rfl
  | dcdMovecursorCh2 o => exact operation hi (moveCursor_op .ch2 o) fun _ => rfl
  | dcdDisplayoffCh1 => exact operation hi (displayOff_op .ch1) fun _ => rfl
  | dcdDisplayoffCh2 => exact operation hi (displayOff_op .ch2) fun _ => rfl
  | dcClear d => exact operation hi ((clearCommand_op d).andThen (setCursor_finish_op d 0)) fun _ => rfl
  | dcHome d => exact operation hi ((homeCommand_op d).andThen (setCursor_finish_op d 0)) fun _ => rfl
  | dcSetcursor d o => exact operation hi (moveCursor_op d o) fun _ => rfl
  | dcDisplayoff d => exact operation hi (displayOff_op d) fun _ => rfl
  | dcWritechar d b => exact operation hi (writeChar_op d b) fun _ => rfl
  | bfCommand d n en => exact operation hi (sendFrame_op d n en false id) fun _ => rfl
  | bfCharacter d n en => exact operation hi (sendFrame_op d n en true id) fun _ => rfl
  | _ => cases hi

/-! ### The other channel -/

theorem otherChan_ne (c : Chan) : c ≠ otherChan c := by cases c <;> exact fun h => nomatch h

@[simp] theorem withChannel_other_drv (c : Chan) (d : Driver) (l : Line) (s : State) :
    (withChannel (otherChan c) d l s).drv c = s.drv c := by
  rw [withChannel, modLine_drv, modDrv_drv_other _ _ _ (otherChan_ne c)]

@[simp] theorem withChannel_other_line (c : Chan) (d : Driver) (l : Line) (s : State) :
    (withChannel (otherChan c) d l s).line c = s.line c := by
  rw [withChannel, modLine_line_other _ _ _ (otherChan_ne c), modDrv_line]

@[simp] theorem withChannel_cfg (c : Chan) (d : Driver) (l : Line) (s : State) :
    (withChannel c d l s).cfg = s.cfg := by simp [withChannel]

@[simp] theorem withChannel_rstIn (c : Chan) (d : Driver) (l : Line) (s : State) :
    (withChannel c d l s).rstIn = s.rstIn := by simp [withChannel]

/-- What an operation on channel `c` makes of another driver and another environment of the other channel: it leaves
them as they stand; where `rst` cuts it off, the driver is reset (70_reset_and_hazards.md R267). -/
def carried (c : Chan) (d : Driver) (l : Line) : State → State :=
  unlessReset (withChannel (otherChan c) d l) fun t => t.modLine (otherChan c) fun _ => l

theorem carried_released {c : Chan} {d : Driver} {l : Line} {t : State} (h : t.rst = false) :
    carried c d l t = withChannel (otherChan c) d l t := unlessReset_released h

/-- A change of the state that neither reads nor writes the other channel, and leaves `rst`. -/
structure ApartUpdate (c : Chan) (g : State → State) : Prop where
  other : ∀ d l s, g (withChannel (otherChan c) d l s) = withChannel (otherChan c) d l (g s)
  rst : ∀ s, (g s).rst = s.rst

/-- A change that is seen to leave the other channel alone by computing it. -/
theorem ApartUpdate.of_eq {c : Chan} {g : State → State}
    (h : (fun d l s => (g (withChannel (otherChan c) d l s), (g s).rst)) =
      fun d l s => (withChannel (otherChan c) d l (g s), s.rst)) : ApartUpdate c g := by
  have hall := fun d l s => congrFun (congrFun (congrFun h d) l) s
  simp only [Prod.mk.injEq] at hall
  exact ⟨fun d l s => (hall d l s).1, fun s => (hall .reset .initial s).2⟩

/-- A statement that neither reads nor writes the other channel. -/
structure Apart (c : Chan) (f : State → Run) : Prop where
  other : ∀ d l s, s.rst = false → f (withChannel (otherChan c) d l s) = (f s).map (carried c d l)
  rst : ∀ s t, f s = .done t → t.rst = s.rst

theorem Apart.andThen {c : Chan} {f g : State → Run} (hf : Apart c f) (hg : Apart c g) :
    Apart c fun s => (f s).andThen g where
  other := fun d l s hs => by
    rw [hf.other d l s hs]
    cases h : f s with
    | done t =>
      have ht : t.rst = false := (hf.rst s t h).trans hs
      rw [Run.map, Run.done_andThen, Run.done_andThen, carried_released ht, hg.other d l t ht]
    | stop t => rfl
  rst := fun s t h => by
    obtain ⟨u, hu, ht⟩ := Run.andThen_done h
    exact (hg.rst u t ht).trans (hf.rst s u hu)

theorem Apart.of {c : Chan} {g : State → State} (hg : ApartUpdate c g) : Apart c fun s => .done (g s) where
  other := fun d l s hs => by rw [hg.other, Run.map, carried_released ((hg.rst s).trans hs)]
  rst := fun s t h => by cases h; exact hg.rst s

theorem Apart.stop {c : Chan} {g : State → State} (hg : ApartUpdate c g) : Apart c fun s => .stop (g s) where
  other := fun d l s hs => by rw [hg.other, Run.map, carried_released ((hg.rst s).trans hs)]
  rst := fun s t h => nomatch h

theorem ApartUpdate.self (c : Chan) : ApartUpdate c fun s => s := ⟨fun _ _ _ => rfl, fun _ => rfl⟩

/-- `rst` looks at nothing but what is to come of it, and resets both drivers where it comes. -/
theorem resetPoint_apart (c : Chan) : Apart c resetPoint where
  other := fun d l s hs => by
    have hcarried : ∀ k, carried c d l { s with rstIn := k } =
        { withChannel (otherChan c) d l s with rstIn := k } := fun k =>
      (carried_released (t := { s with rstIn := k }) hs).trans (by cases c <;> rfl)
    have hreset : carried c d l s.assertReset = (withChannel (otherChan c) d l s).assertReset := by
      cases c <;> rfl
    unfold resetPoint
    rw [withChannel_rstIn]
    rcases s.rstIn with _ | _ | n
    · rw [Run.map, carried_released hs]
    · rw [Run.map, hreset]
    · rw [Run.map, hcarried]
  rst := fun s t h => by
    rcases resetPoint_cases s with ⟨-, hs⟩ | ⟨n, -, hs⟩ | ⟨-, hs⟩ <;> rw [hs] at h <;> cases h <;> rfl

theorem ApartUpdate.event {c : Chan} {g : State → State} (hg : ApartUpdate c g) : Apart c fun s => resetPoint (g s) :=
  (Apart.of hg).andThen (resetPoint_apart c)

theorem sleep_apart (c : Chan) (n : Nat) : Apart c fun s => s.sleep n :=
  have hbegin : ApartUpdate c fun s => s.beginSleep n := by cases c <;> exact .of_eq rfl
  have hend : ApartUpdate c fun s => s.endSleep n := by cases c <;> exact .of_eq rfl
  hbegin.event.andThen (.of hend)

theorem readyGivenUp_apart (c : Chan) (n : Nat) : Apart c fun s => s.readyGivenUp c n :=
  have hevent : ApartUpdate c fun s => ({ s with time := s.time + n } : State).setBusTimeout.emit (.busTimeout c) := by
    cases c <;> exact .of_eq rfl
  have hhalt : ApartUpdate c State.halt := by cases c <;> exact .of_eq rfl
  hevent.event.andThen (.stop hhalt)

/-- How the next ready-wait ends is in the channel's own environment. -/
theorem readyWait_apart (c : Chan) (v : View → View) : Apart c (readyWait c v) := by
  have hseen : ∀ w r, Apart c fun s => resetPoint (s.readySeen c w r v) := fun w r => by
    have h : ApartUpdate c fun s => s.readySeen c w r v := by cases c <;> exact .of_eq rfl
    exact h.event
  refine ⟨fun d l s hs => ?_, fun s t h => ?_⟩
  · unfold readyWait
    rw [withChannel_other_line, withChannel_cfg]
    rcases (s.line c).ready.pop with ⟨_ | w, r⟩
    · cases s.cfg.busTimeout with
      | none => exact (Apart.stop (.self c)).other d l s hs
      | some n => exact (readyGivenUp_apart c n).other d l s hs
    · dsimp only
      split
      · exact (hseen w r).other d l s hs
      · exact (readyGivenUp_apart c _).other d l s hs
  · rcases readyWait_cases c v s with ⟨w, r, -, -, hw⟩ | ⟨-, -, hw⟩ | ⟨n, -, hw⟩ <;> rw [hw] at h
    · exact (hseen w r).rst s t h
    · cases h
    · exact (readyGivenUp_apart c n).rst s t h

/-- Every operation on a channel leaves the other channel alone. -/
theorem ChannelOp.apart {c : Chan} {i j : BusStage} {f : State → Run} (h : ChannelOp c i j f) : Apart c f := by
  induction h with
  | done => exact .of (.self c)
  | andThen _ _ ihf ihg => exact ihf.andThen ihg
  | read _ ih =>
    exact ⟨fun d l s hs => by simp only [withChannel_cfg]; exact (ih s.cfg).other d l s hs,
      fun s t => (ih s.cfg).rst s t⟩
  | write f _ =>
    have h : ApartUpdate c fun s => s.modDrv c f := by cases c <;> exact .of_eq rfl
    exact .of h
  | sleep n => exact sleep_apart c n
  | wait v => exact readyWait_apart c v
  | start =>
    have h : ApartUpdate c fun s => s.requestStart c := by cases c <;> exact .of_eq rfl
    exact h.event
  | addr =>
    have h : ApartUpdate c fun s => s.requestAddr c (busAddr s.cfg c) := by cases c <;> exact .of_eq rfl
    exact h.event
  | data b =>
    have h : ApartUpdate c fun s => s.requestData c b := by cases c <;> exact .of_eq rfl
    exact h.event
  | mark =>
    have h : ApartUpdate c (markInitialised c) := by cases c <;> exact .of_eq rfl
    exact .of h

theorem Apart.result {c : Chan} {f : State → Run} (hf : Apart c f) (d : Driver) (l : Line) {s : State}
    (hs : s.rst = false) :
    (f (withChannel (otherChan c) d l s)).result = mapNext (carried c d l) (f s).result := by
  rw [hf.other d l s hs, mapNext_result]

/-- Settles O37: an operation on a channel looks at its own channel for whether it may be performed, and is then apart
from the other. -/
theorem channelsAreIsolated : Obligations.ChannelsAreIsolated := by
  intro s c i d l hi hs
  change _ = mapNext (carried c d l) _
  rcases exec_displayOp hi with ⟨f, hf, he⟩ | he
  · rw [he, he, ifInitialised, ifInitialised, withChannel_other_drv, hf.apart.result d l hs]
    split <;> rfl
  · rw [he, he, ifUninitialised, ifUninitialised, withChannel_other_drv, withChannel_other_line,
      (initDisplay_op c).apart.result d l hs]
    split
    · rfl
    · split <;> rfl

end Sys2Proof.Machine
end

section
/-! The traffic of a channel across a step (20_memory.md R58): one start, one address, then data. Most of what the block
does is no traffic of the channel at all (`SameTraffic`); an operation on the channel takes its traffic from stage to
stage (`State.AtStage`). -/

namespace Sys2Proof.Machine

open Sys2Proof.Config

/-! ### The requests of a trace -/

theorem busRequests_eq_filter (c : Chan) (es : List Event) :
    busRequests c es = es.filter fun e => requestChan e == some c := by
  induction es with
  | nil => rfl
  | cons e es ih => cases e <;> simp [busRequests, requestChan, List.filter_cons, ih]

theorem busRequests_append (c : Chan) (es fs : List Event) :
    busRequests c (es ++ fs) = busRequests c es ++ busRequests c fs := by
  simp only [busRequests_eq_filter, List.filter_append]

theorem busRequests_snoc_other {c : Chan} {e : Event} (he : requestChan e ≠ some c) (es : List Event) :
    busRequests c (es ++ [e]) = busRequests c es := by
  rw [busRequests_append, busRequests_eq_filter c [e], List.filter_cons_of_neg (by simpa using he), List.filter_nil,
    List.append_nil]

theorem busRequests_snoc_own {c : Chan} {e : Event} (he : requestChan e = some c) (es : List Event) :
    busRequests c (es ++ [e]) = busRequests c es ++ [e] := by
  rw [busRequests_append, busRequests_eq_filter c [e], List.filter_cons_of_pos (by simpa using he), List.filter_nil]

theorem dataOnly_snoc_data (c : Chan) (b : Byte) (es : List Event) :
    dataOnly (es ++ [.busData c b]) = dataOnly es := by
  induction es with
  | nil => rfl
  | cons e es ih => cases e <;> simp [dataOnly, ih]

/-- Data may follow once the display has been addressed. -/
theorem trafficShape_snoc_data {p : Params} {c : Chan} {es : List Event} (h : trafficShape p c es = true)
    (hlen : 2 ≤ es.length) (b : Byte) : trafficShape p c (es ++ [.busData c b]) = true := by
  match es with
  | [] => cases hlen
  | [_] => exact absurd hlen (by simp)
  | e :: f :: es =>
    simp only [List.cons_append, trafficShape, dataOnly_snoc_data]
    exact h

/-! ### What is no traffic of the channel -/

/-- From `s` to `t` nothing was sent on channel `c` and it was not initialised; `rst` may have come and have taken its
initialisation away. -/
structure SameTraffic (c : Chan) (s t : State) : Prop where
  cfg : t.cfg = s.cfg
  requests : busRequests c t.events = busRequests c s.events
  started : (t.line c).started = (s.line c).started
  inited : (t.drv c).inited = true → (s.drv c).inited = true

theorem SameTraffic.refl (c : Chan) (s : State) : SameTraffic c s s := ⟨rfl, rfl, rfl, id⟩

theorem SameTraffic.trans {c : Chan} {s t u : State} (h : SameTraffic c s t) (k : SameTraffic c t u) :
    SameTraffic c s u :=
  ⟨k.cfg.trans h.cfg, k.requests.trans h.requests, k.started.trans h.started, fun i => h.inited (k.inited i)⟩

theorem SameTraffic.inited_false {c : Chan} {s t : State} (h : SameTraffic c s t) (hs : (s.drv c).inited = false) :
    (t.drv c).inited = false :=
  Bool.eq_false_iff.2 fun hi => Bool.eq_false_iff.1 hs (h.inited hi)

/-- Registers of other components are written, or ports, or the model's own fields. -/
theorem SameTraffic.of_eq {c : Chan} {s t : State}
    (h : (t.cfg, t.events, t.line c, t.drv c) = (s.cfg, s.events, s.line c, s.drv c)) : SameTraffic c s t := by
  simp only [Prod.mk.injEq] at h
  obtain ⟨hcfg, hevents, hline, hdrv⟩ := h
  exact ⟨hcfg, by rw [hevents], by rw [hline], by rw [hdrv]; exact id⟩

/-- One event that is no request on channel `c`. -/
theorem SameTraffic.of_event {c : Chan} {s t : State} {e : Event} (he : requestChan e ≠ some c)
    (h : (t.cfg, t.events, t.line c, t.drv c) = (s.cfg, s.events ++ [e], s.line c, s.drv c)) : SameTraffic c s t := by
  simp only [Prod.mk.injEq] at h
  obtain ⟨hcfg, hevents, hline, hdrv⟩ := h
  exact ⟨hcfg, by rw [hevents, busRequests_snoc_other he], by rw [hline], by rw [hdrv]; exact id⟩

/-- `rst` takes initialisation away and leaves the trace and the environment. -/
theorem SameTraffic.resetPoint {c : Chan} {s u : State} (h : SameTraffic c s u) :
    SameTraffic c s (resetPoint u).state := by
  refine h.trans ?_
  rcases resetPoint_cases u with ⟨-, hu⟩ | ⟨n, -, hu⟩ | ⟨-, hu⟩ <;> rw [hu]
  · exact .refl c u
  · exact .of_eq rfl
  · exact ⟨rfl, rfl, by simp [Run.state], by simp [Run.state, Driver.reset]⟩

theorem SameTraffic.andThen {c : Chan} {s : State} {r : Run} {f : State → Run} (h : SameTraffic c s r.state)
    (hf : ∀ t, SameTraffic c t (f t).state) : SameTraffic c s (r.andThen f).state := by
  cases r with
  | done t => exact h.trans (hf t)
  | stop t => exact h

theorem SameTraffic.thenDone {c : Chan} {s : State} {r : Run} {g : State → State} (h : SameTraffic c s r.state)
    (hg : ∀ t, SameTraffic c t (g t)) : SameTraffic c s (r.andThen fun t => .done (g t)).state :=
  h.andThen hg

theorem sleep_sameTraffic (c : Chan) (n : Nat) (s : State) : SameTraffic c s (s.sleep n).state :=
  have hbegin : SameTraffic c s (s.beginSleep n) := .of_event (e := .delay n) (by simp [requestChan]) rfl
  hbegin.resetPoint.thenDone fun _ => .of_eq rfl

/-! ### The scanner and the player -/

section
variable (c : Chan)

theorem deliverDigit_sameTraffic (d : Nibble) (s : State) : SameTraffic c s (deliverDigit d s).state := .of_eq rfl

theorem noDigit_sameTraffic (s : State) : SameTraffic c s (noDigit s).state :=
  have hevent : SameTraffic c s (s.setNomatch.emit (.noMatch s.ksPat)) :=
    .of_event (e := .noMatch s.ksPat) (by simp [requestChan]) rfl
  hevent.resetPoint.andThen fun t => deliverDigit_sameTraffic c _ t

theorem lookupPattern_sameTraffic (s : State) : SameTraffic c s (lookupPattern s).state := by
  have hslot : ∀ v : BitVec 4, SameTraffic c s { s with ksSlot := v } := fun _ => .of_eq rfl
  unfold lookupPattern
  cases findSlot s.ksPat s.cfg.keymap 0 with
  | none => exact (hslot 0).trans (noDigit_sameTraffic c _)
  | some j =>
    dsimp only
    split
    · exact (hslot _).trans (deliverDigit_sameTraffic c _ _)
    · exact (hslot _).trans (noDigit_sameTraffic c _)

theorem writeRows_sameTraffic (v : Nibble) (s : State) : SameTraffic c s (writeRows v s).state :=
  have hevent : SameTraffic c s (s.driveRows v) := .of_event (e := .row v) (by simp [requestChan]) rfl
  hevent.resetPoint

theorem setKs_sameTraffic (ph : KsPhase) (s : State) : SameTraffic c s (setKs ph s) := .of_eq rfl

theorem scanRow_sameTraffic {more : State → Run} (hmore : ∀ t, SameTraffic c t (more t).state) (s : State) :
    SameTraffic c s (scanRow more s).state := by
  have hstrobe : SameTraffic c s (strobeRow s).state :=
    ((setKs_sameTraffic c .drive s).trans (writeRows_sameTraffic c _ _)).andThen fun t =>
      (setKs_sameTraffic c .settle t).trans (sleep_sameTraffic c _ _)
  have hsample : ∀ t, SameTraffic c t (sampleColumns t).state := fun t =>
    have hevent : SameTraffic c t ((setKs .sample { t with cols := t.cols.tail }).emit (.sample (columnsNow t))) :=
      .of_event (e := .sample (columnsNow t)) (by simp [requestChan]) rfl
    hevent.resetPoint
  refine hstrobe.andThen fun t => (hsample t).andThen fun u => ?_
  split
  · have hpat : SameTraffic c u (setKs .lookup { u with ksPat := keyPattern u.kpRow (columnsNow t) }) := .of_eq rfl
    exact (hpat.trans (writeRows_sameTraffic c _ _)).andThen (lookupPattern_sameTraffic c)
  · have hnext : SameTraffic c u (nextRow u) := .of_eq rfl
    exact hnext.trans (hmore _)

theorem scanRows_sameTraffic (n : Nat) (s : State) : SameTraffic c s (scanRows n s).state := by
  induction n generalizing s with
  | zero => exact .refl c s
  | succ n ih => exact scanRow_sameTraffic c ih s

theorem readDigit_sameTraffic (s : State) : SameTraffic c s (readDigit s).state :=
  have hfirst : SameTraffic c s (setKs .drive { s with ksRow := 0 }) := .of_eq rfl
  hfirst.trans (scanRows_sameTraffic c _ _)

theorem slotPattern_sameTraffic (k : Nat) (s : State) : SameTraffic c s (slotPattern k s).state :=
  have hpat : SameTraffic c s (setKs .lookup { s with ksPat := (keymapRom s.cfg k).pattern }) := .of_eq rfl
  hpat.trans (lookupPattern_sameTraffic c _)

theorem setPlayer_sameTraffic (st : LmpState) (s : State) : SameTraffic c s (setPlayer st s) := .of_eq rfl

theorem writeLed_sameTraffic (b : Bool) (s : State) : SameTraffic c s (writeLed b s).state :=
  have hevent : SameTraffic c s (s.driveLed b) := .of_event (e := .led b) (by simp [requestChan]) rfl
  hevent.resetPoint

theorem playMarks_sameTraffic (w : Byte) (n i : Nat) (s : State) : SameTraffic c s (playMarks w n i s).state := by
  induction n generalizing i s with
  | zero => exact .refl c s
  | succ n ih =>
    have hidx : SameTraffic c s (setPlayer .markOn { s with lmpIdx := BitVec.ofNat 3 i }) := .of_eq rfl
    have hmark : SameTraffic c s (markOn w i s).state :=
      (hidx.trans (writeLed_sameTraffic c true _)).andThen fun t => sleep_sameTraffic c _ t
    have hgap : ∀ t, SameTraffic c t (gapOff t).state := fun t =>
      ((setPlayer_sameTraffic c .gapOff t).trans (writeLed_sameTraffic c false _)).andThen fun u =>
        sleep_sameTraffic c _ u
    exact (hmark.andThen hgap).andThen (ih (i + 1))

theorem playWord_sameTraffic (w : Byte) (s : State) : SameTraffic c s (playWord w s).state :=
  ((playMarks_sameTraffic c w _ 0 s).andThen fun t =>
    (setPlayer_sameTraffic c .gapOff t).trans (sleep_sameTraffic c _ _)).thenDone (setPlayer_sameTraffic c .idle)

end

/-! ### The display channels -/

/-- The end of a ready-wait is no request, on whichever channel. -/
theorem readyWait_sameTraffic (c c' : Chan) (v : View → View) (s : State) :
    SameTraffic c s (readyWait c' v s).state := by
  rcases readyWait_cases c' v s with ⟨w, r, -, -, h⟩ | ⟨-, -, h⟩ | ⟨n, -, h⟩ <;> rw [h]
  · have hseen : SameTraffic c s (s.readySeen c' w r v) := by
      refine ⟨by simp [State.readySeen], ?_, ?_, ?_⟩
      · simp only [State.readySeen, emit_events, modDrv_events, modLine_events]
        exact busRequests_snoc_other (by simp [requestChan]) _
      · cases c <;> cases c' <;> exact rfl
      · cases c <;> cases c' <;> exact id
    exact hseen.resetPoint
  · exact .refl c s
  · have hevent : SameTraffic c s (({ s with time := s.time + n } : State).setBusTimeout.emit (.busTimeout c')) :=
      .of_event (e := .busTimeout c') (by simp [requestChan]) rfl
    refine hevent.resetPoint.andThen fun t => ?_
    have hhalt : SameTraffic c t t.halt := .of_eq rfl
    exact hhalt

theorem modDrv_sameTraffic (c c' : Chan) {f : Driver → Driver} (hf : ∀ d, (f d).inited = d.inited) (s : State) :
    SameTraffic c s (s.modDrv c' f) := by
  refine ⟨by simp, by simp, by simp, ?_⟩
  by_cases hc : c = c'
  · subst hc
    rw [modDrv_drv_own, hf]
    exact id
  · rw [modDrv_drv_other _ _ _ hc]
    exact id

/-- Nothing an operation on another channel does is traffic of this one. -/
theorem ChannelOp.sameTraffic_other {c c' : Chan} {i j : BusStage} {f : State → Run} (h : ChannelOp c' i j f)
    (hc : c ≠ c') (s : State) : SameTraffic c s (f s).state := by
  have hother : ∀ {e : Event}, requestChan e = some c' → requestChan e ≠ some c := fun he hn =>
    hc (Option.some.inj (hn.symm.trans he))
  induction h generalizing s with
  | done => exact .refl c s
  | andThen _ _ ihf ihg => exact (ihf s).andThen ihg
  | read _ ih => exact ih s.cfg s
  | write f hf => exact modDrv_sameTraffic c c' hf s
  | sleep n => exact sleep_sameTraffic c n s
  | wait v => exact readyWait_sameTraffic c c' v s
  | start =>
    have hevent : SameTraffic c s (s.requestStart c') :=
      .of_event (e := .busStart c') (hother rfl)
        (by simp [State.requestStart, modDrv_drv_other _ _ _ hc, modLine_line_other _ _ _ hc])
    exact hevent.resetPoint
  | addr =>
    have hevent : SameTraffic c s (s.requestAddr c' (busAddr s.cfg c')) :=
      .of_event (e := .busAddr c' (busAddr s.cfg c')) (hother rfl)
        (by simp [State.requestAddr, modDrv_drv_other _ _ _ hc])
    exact hevent.resetPoint
  | data b =>
    have hevent : SameTraffic c s (s.requestData c' b) :=
      .of_event (e := .busData c' b) (hother rfl) (by simp [State.requestData, modDrv_drv_other _ _ _ hc])
    exact hevent.resetPoint
  | mark =>
    have hmark : SameTraffic c s (markInitialised c' s) :=
      .of_eq (by simp [markInitialised, modDrv_drv_other _ _ _ hc, modLine_line_other _ _ _ hc])
    exact hmark

/-! ### The stages of a channel's traffic -/

/-- The traffic of channel `c` has reached the stage. -/
def State.AtStage (s : State) (c : Chan) : BusStage → Prop
  | .fresh => s.TrafficOk c ∧ (s.line c).started = false
  | .begun => busRequests c s.events = [.busStart c] ∧ (s.line c).started = true ∧ (s.drv c).inited = false
  | .addressed =>
    trafficShape s.cfg c (busRequests c s.events) = true ∧ 2 ≤ (busRequests c s.events).length ∧
      (s.line c).started = true

theorem State.AtStage.trafficOk {s : State} {c : Chan} {i : BusStage} (h : s.AtStage c i) : s.TrafficOk c := by
  cases i with
  | fresh => exact h.1
  | begun =>
    obtain ⟨hreq, hstarted, hinited⟩ := h
    refine ⟨by simp [hreq, trafficShape], fun hn => ?_, fun hi => ?_⟩
    · rw [hstarted] at hn; cases hn
    · rw [hinited] at hi; cases hi
  | addressed =>
    obtain ⟨hshape, hlen, hstarted⟩ := h
    refine ⟨hshape, fun hn => ?_, fun _ => hlen⟩
    rw [hstarted] at hn; cases hn

theorem SameTraffic.trafficOk {c : Chan} {s t : State} (h : SameTraffic c s t) (hs : s.TrafficOk c) :
    t.TrafficOk c := by
  obtain ⟨hshape, hfresh, hlen⟩ := hs
  refine ⟨by rw [h.cfg, h.requests]; exact hshape, fun hn => ?_, fun hi => ?_⟩
  · obtain ⟨hreq, hinited⟩ := hfresh (h.started ▸ hn)
    exact ⟨h.requests.trans hreq, h.inited_false hinited⟩
  · rw [h.requests]
    exact hlen (h.inited hi)

theorem SameTraffic.atStage {c : Chan} {i : BusStage} {s t : State} (h : SameTraffic c s t) (hs : s.AtStage c i) :
    t.AtStage c i := by
  cases i with
  | fresh => exact ⟨h.trafficOk hs.1, h.started.trans hs.2⟩
  | begun =>
    obtain ⟨hreq, hstarted, hinited⟩ := hs
    exact ⟨h.requests.trans hreq, h.started.trans hstarted, h.inited_false hinited⟩
  | addressed =>
    obtain ⟨hshape, hlen, hstarted⟩ := hs
    exact ⟨by rw [h.cfg, h.requests]; exact hshape, by rw [h.requests]; exact hlen, h.started.trans hstarted⟩

/-- A channel that is not started is at the first stage, and one that is initialised at the last. -/
theorem State.TrafficOk.fresh {s : State} {c : Chan} (h : s.TrafficOk c) (hs : (s.line c).started = false) :
    s.AtStage c .fresh := ⟨h, hs⟩

theorem State.TrafficOk.addressed {s : State} {c : Chan} (h : s.TrafficOk c) (hi : (s.drv c).inited = true) :
    s.AtStage c .addressed := by
  obtain ⟨hshape, hfresh, hlen⟩ := h
  refine ⟨hshape, hlen hi, Bool.not_eq_false _ ▸ fun hn => ?_⟩
  rw [(hfresh hn).2] at hi
  cases hi

/-- An operation that finds the traffic of channel `c` at a stage leaves it at another when it returns, and in order
when it stops. -/
def Advances (c : Chan) (i j : BusStage) (f : State → Run) : Prop :=
  ∀ s : State, s.AtStage c i → (f s).Ends (fun t => t.AtStage c j) fun t => t.TrafficOk c

theorem Advances.andThen {c : Chan} {i j k : BusStage} {f g : State → Run} (hf : Advances c i j f)
    (hg : Advances c j k g) : Advances c i k fun s => (f s).andThen g :=
  fun s hs => Run.Ends.andThen (hf s hs) hg

theorem Run.Ends.of_state {r : Run} {P Q : State → Prop} (h : P r.state) (hq : ∀ t, P t → Q t) : r.Ends P Q := by
  cases r with
  | done t => exact h
  | stop t => exact hq t h

/-- What is no traffic of the channel leaves the stage. -/
theorem Advances.of_same {c : Chan} {i : BusStage} {f : State → Run} (hf : ∀ s, SameTraffic c s (f s).state) :
    Advances c i i f :=
  fun s hs => Run.Ends.of_state ((hf s).atStage hs) fun _ => State.AtStage.trafficOk

theorem Advances.comp {c : Chan} {i j : BusStage} {f : State → Run} {g : State → State} (hf : Advances c i j f)
    (hg : ∀ s, SameTraffic c s (g s)) : Advances c i j fun s => f (g s) :=
  fun s hs => hf (g s) ((hg s).atStage hs)

/-- A request with which the next stage is reached. -/
theorem Advances.request {c : Chan} {i j : BusStage} {g : State → State}
    (hg : ∀ s : State, s.AtStage c i → (g s).AtStage c j) : Advances c i j fun s => resetPoint (g s) :=
  fun s hs => Advances.of_same (f := resetPoint) (fun _ => (SameTraffic.refl c _).resetPoint) (g s) (hg s hs)

theorem requestStart_begun {c : Chan} {s : State} (hs : s.AtStage c .fresh) : (s.requestStart c).AtStage c .begun := by
  obtain ⟨⟨-, hfresh, -⟩, hstarted⟩ := hs
  obtain ⟨hreq, hinited⟩ := hfresh hstarted
  refine ⟨?_, by simp [State.requestStart], by simpa [State.requestStart] using hinited⟩
  simp only [State.requestStart, emit_events, modLine_events, modDrv_events]
  rw [busRequests_snoc_own rfl, hreq, List.nil_append]

theorem requestAddr_addressed {c : Chan} {s : State} (hs : s.AtStage c .begun) :
    (s.requestAddr c (busAddr s.cfg c)).AtStage c .addressed := by
  obtain ⟨hreq, hstarted, -⟩ := hs
  have hreq' : busRequests c (s.requestAddr c (busAddr s.cfg c)).events =
      [.busStart c, .busAddr c (busAddr s.cfg c)] := by
    simp only [State.requestAddr, emit_events, modDrv_events]
    rw [busRequests_snoc_own rfl, hreq, List.singleton_append]
  refine ⟨?_, by rw [hreq']; exact Nat.le_refl 2, by simpa [State.requestAddr] using hstarted⟩
  rw [hreq']
  simp [State.requestAddr, trafficShape, dataOnly]

theorem requestData_addressed {c : Chan} (b : Byte) {s : State} (hs : s.AtStage c .addressed) :
    (s.requestData c b).AtStage c .addressed := by
  obtain ⟨hshape, hlen, hstarted⟩ := hs
  have hreq : busRequests c (s.requestData c b).events = busRequests c s.events ++ [.busData c b] := by
    simp only [State.requestData, emit_events, modDrv_events]
    exact busRequests_snoc_own rfl _
  refine ⟨?_, ?_, by simpa [State.requestData] using hstarted⟩
  · rw [hreq]
    simpa [State.requestData] using trafficShape_snoc_data hshape hlen b
  · rw [hreq, List.length_append]
    exact Nat.le_add_right_of_le hlen

/-- An operation on a channel takes its traffic from stage to stage. -/
theorem ChannelOp.advances {c : Chan} {i j : BusStage} {f : State → Run} (h : ChannelOp c i j f) :
    Advances c i j f := by
  induction h with
  | done => exact .of_same fun s => .refl c s
  | andThen _ _ ihf ihg => exact ihf.andThen ihg
  | read _ ih => exact fun s hs => ih s.cfg s hs
  | write f hf => exact .of_same (modDrv_sameTraffic c c hf)
  | sleep n => exact .of_same (sleep_sameTraffic c n)
  | wait v => exact .of_same (readyWait_sameTraffic c c v)
  | start => exact .request fun _ => requestStart_begun
  | addr => exact .request fun _ => requestAddr_addressed
  | data b => exact .request fun _ => requestData_addressed b
  | mark =>
    intro s hs
    simpa [Run.Ends, State.AtStage, markInitialised] using hs

/-! ### The session controller -/

/-- Data on either channel keeps an addressed channel addressed. -/
theorem ChannelOp.addressed {c' : Chan} {f : State → Run} (h : ChannelOp c' .addressed .addressed f) (c : Chan) :
    Advances c .addressed .addressed f := by
  by_cases hc : c = c'
  · subst hc; exact h.advances
  · exact .of_same (h.sameTraffic_other hc)

section
variable (c : Chan)

theorem setSc_sameTraffic (ph : ScPhase) (s : State) : SameTraffic c s (setSc ph s) := .of_eq rfl

theorem windowSettle_sameTraffic (s : State) : SameTraffic c s (windowSettle s).state :=
  have hempty : SameTraffic c s (emptyWindow s) := .of_eq rfl
  hempty.trans (sleep_sameTraffic c _ _)

theorem haltDone_sameTraffic (s : State) : SameTraffic c s (haltDone s).state := by
  have hevent : SameTraffic c s (s.setDone.emit .done) := .of_event (e := .done) (by simp [requestChan]) rfl
  exact hevent.resetPoint.thenDone fun _ => .of_eq rfl

/-- DCD.INITIALIZE on the one channel, then on the other. -/
theorem startSession_advances : Advances c .fresh .addressed startSession := by
  have hcheck : Advances c .addressed .addressed fun t => .done (setSc .check t) :=
    .of_same (setSc_sameTraffic c .check)
  have hinit : ∀ (c' : Chan) (ph : ScPhase) {i : BusStage}, c ≠ c' →
      Advances c i i fun s => initDisplay c' (setSc ph s) := fun c' ph _ hc =>
    Advances.comp (.of_same ((initDisplay_op c').sameTraffic_other hc)) (setSc_sameTraffic c ph)
  cases c with
  | ch1 =>
    exact (((initDisplay_op .ch1).advances.comp (setSc_sameTraffic .ch1 .init1)).andThen
      (hinit .ch2 .init2 (fun h => nomatch h))).andThen hcheck
  | ch2 =>
    exact ((hinit .ch1 .init1 (fun h => nomatch h)).andThen
      ((initDisplay_op .ch2).advances.comp (setSc_sameTraffic .ch2 .init2))).andThen hcheck

theorem windowBoundary_advances : Advances c .addressed .addressed windowBoundary := by
  have hclear : Advances c .addressed .addressed fun s =>
      ((clearDisplay .ch1 (setSc .wclr1 s)).andThen fun t => clearDisplay .ch2 (setSc .wclr2 t)).andThen fun t =>
        windowSettle (setSc .wsettle t) :=
    ((((clearDisplay_op .ch1).addressed c).comp (setSc_sameTraffic c .wclr1)).andThen
      (((clearDisplay_op .ch2).addressed c).comp (setSc_sameTraffic c .wclr2))).andThen
      (Advances.comp (.of_same (windowSettle_sameTraffic c)) (setSc_sameTraffic c .wsettle))
  intro s hs
  unfold windowBoundary
  split
  · exact hclear s hs
  · exact hs

theorem readPhase_sameTraffic (s : State) : SameTraffic c s (readPhase s).state :=
  ((setSc_sameTraffic c .read s).trans (readDigit_sameTraffic c _)).thenDone fun _ => .of_eq rfl

theorem positionPhase_advances : Advances c .addressed .addressed positionPhase := by
  intro s hs
  have hs' := (setSc_sameTraffic c .ch1pos s).atStage hs
  unfold positionPhase
  dsimp only
  split
  · exact (clearDisplay_op .ch1).addressed c _ hs'
  · exact (moveCursor_op .ch1 _).addressed c _ hs'

/-- A character on a channel, written in a phase of the controller. -/
theorem charPhase_advances (c' : Chan) (b : State → Byte) (ph : ScPhase) :
    Advances c .addressed .addressed fun s => writeChar c' (b s) (setSc ph s) :=
  fun s hs => (writeChar_op c' (b s)).addressed c _ ((setSc_sameTraffic c ph s).atStage hs)

theorem writeMarks_advances (n i : Nat) : Advances c .addressed .addressed (writeMarks n i) := by
  induction n generalizing i with
  | zero => exact .of_same (.refl c)
  | succ n ih =>
    have hmark : Advances c .addressed .addressed (writeMark i) := fun s hs => by
      have hindex : SameTraffic c s { s with scMi := BitVec.ofNat 3 i } := .of_eq rfl
      exact (writeChar_op .ch2 _).addressed c _ (hindex.atStage hs)
    exact hmark.andThen (ih (i + 1))

theorem marksPhase_advances : Advances c .addressed .addressed marksPhase := fun s hs =>
  writeMarks_advances c (markCount s.mw) 0 _ ((setSc_sameTraffic c .ch2mrk s).atStage hs)

theorem iterateSession_advances : Advances c .addressed .addressed iterateSession :=
  have hcipher : Advances c .addressed .addressed fun t => .done (cipherPhase t) := .of_same fun _ => .of_eq rfl
  have hplay : Advances c .addressed .addressed playPhase :=
    .of_same fun s => (setSc_sameTraffic c .play s).trans (playWord_sameTraffic c _ _)
  have hadvance : Advances c .addressed .addressed fun t => .done (setSc .check (advanceCounts (setSc .adv t))) :=
    .of_same fun _ => .of_eq rfl
  (((((((((windowBoundary_advances c).andThen (.of_same (readPhase_sameTraffic c))).andThen hcipher).andThen
    (positionPhase_advances c)).andThen (charPhase_advances c .ch1 (fun s => digitChar s.dig) .ch1wr)).andThen
    (((clearDisplay_op .ch2).addressed c).comp (setSc_sameTraffic c .ch2clr))).andThen
    (charPhase_advances c .ch2 (fun s => digitChar s.enc) .ch2dig)).andThen
    (marksPhase_advances c)).andThen hplay).andThen hadvance

theorem terminateSession_advances : Advances c .addressed .addressed terminateSession :=
  ((((displayOff_op .ch1).addressed c).comp (setSc_sameTraffic c .off1)).andThen
    (((displayOff_op .ch2).addressed c).comp (setSc_sameTraffic c .off2))).andThen (.of_same (haltDone_sameTraffic c))

theorem iterations_advances (n : Nat) : Advances c .addressed .addressed (iterations n) := by
  induction n with
  | zero => exact .of_same (.refl c)
  | succ n ih =>
    intro s hs
    rw [iterations]
    split
    · exact hs
    · exact (iterateSession_advances c).andThen ih s hs

theorem runSession_advances : Advances c .fresh .addressed runSession :=
  have hloop : Advances c .addressed .addressed fun t => iterations t.rem t := fun t =>
    iterations_advances c t.rem t
  ((startSession_advances c).andThen hloop).andThen (terminateSession_advances c)

end

/-! ### Every instruction, every phase of the walk, every step -/

theorem ifInitialised_inited {c : Chan} {s t : State} {r : Run} (h : ifInitialised c s r = .next t) :
    (s.drv c).inited = true := by
  unfold ifInitialised at h
  split at h
  · assumption
  · cases h

theorem ifUninitialised_unstarted {c : Chan} {s t : State} {r : Host.Outcome State Fault Refusal}
    (h : ifUninitialised c s r = .next t) : (s.line c).started = false := by
  unfold ifUninitialised at h
  split at h
  · cases h
  · split at h
    · cases h
    · next hs => exact Bool.eq_false_iff.2 hs

/-- The session has begun on both channels (43_display_channel_driver.md R163). -/
theorem ifSessionOpen_inited {s t : State} {r : Run} (h : ifSessionOpen s r = .next t) (c : Chan) :
    (s.drv c).inited = true := by
  unfold ifSessionOpen at h
  split at h
  · next h1 =>
    cases c with
    | ch1 => exact h1
    | ch2 => exact ifInitialised_inited h
  · cases h

/-- The session has begun on neither channel (43_display_channel_driver.md R170). -/
theorem ifSessionNew_unstarted {s t : State} {r : Run} (h : ifSessionNew s r = .next t) (c : Chan) :
    (s.line c).started = false := by
  cases c with
  | ch1 => exact ifUninitialised_unstarted h
  | ch2 => exact ifUninitialised_unstarted (ifUninitialised_next h)

theorem SameTraffic.result {c : Chan} {s t : State} {r : Run} (h : SameTraffic c s r.state)
    (ht : r.result = .next t) : SameTraffic c s t := by
  rw [Run.result_eq] at ht; cases ht; exact h

theorem Advances.result {c : Chan} {i j : BusStage} {f : State → Run} {s t : State} (hf : Advances c i j f)
    (hs : s.AtStage c i) (ht : (f s).result = .next t) : t.TrafficOk c :=
  (Run.Ends.result (hf s hs) ht).elim State.AtStage.trafficOk id

/-- Data is sent on an initialised channel only, and a bus is started once. -/
theorem exec_display_trafficOk {i : Instr} {c c' : Chan} {s t : State} (hi : displayChan i = some c')
    (hs : s.TrafficOk c) (h : exec i s = .next t) : t.TrafficOk c := by
  rcases exec_displayOp hi with ⟨f, hf, he⟩ | he <;> rw [he] at h
  · have ht := ifInitialised_next h
    by_cases hc : c = c'
    · subst hc; exact hf.advances.result (hs.addressed (ifInitialised_inited h)) ht
    · exact ((hf.sameTraffic_other hc s).result ht).trafficOk hs
  · have ht := ifUninitialised_next h
    by_cases hc : c = c'
    · subst hc; exact (initDisplay_op c).advances.result (hs.fresh (ifUninitialised_unstarted h)) ht
    · exact (((initDisplay_op c').sameTraffic_other hc s).result ht).trafficOk hs

/-- Every instruction keeps the traffic of a channel in order. -/
theorem exec_trafficOk {i : Instr} {c : Chan} {s t : State} (hs : s.TrafficOk c) (h : exec i s = .next t) :
    t.TrafficOk c := by
  have component : ∀ {r : Run}, SameTraffic c s r.state → r.result = .next t → t.TrafficOk c := fun hr ht =>
    (hr.result ht).trafficOk hs
  have fromNew : ∀ {f : State → Run}, Advances c .fresh .addressed f → ifSessionNew s (f s) = .next t →
      t.TrafficOk c := fun hf ht =>
    hf.result (hs.fresh (ifSessionNew_unstarted ht c)) (ifUninitialised_next (ifUninitialised_next ht))
  have fromOpen : ∀ {f : State → Run}, Advances c .addressed .addressed f → ifSessionOpen s (f s) = .next t →
      t.TrafficOk c := fun hf ht => hf.result (hs.addressed (ifSessionOpen_inited ht c)) (ifSessionOpen_next ht)
  have hret : ∀ x : Ret, SameTraffic c s { s with ret := x } := fun _ => .of_eq rfl
  rcases hd : displayChan i with _ | c'
  · cases i with
    | ksReaddigit => exact component (readDigit_sameTraffic c s) h
    | ceEncrypt d q => cases h; exact (hret _).trafficOk hs
    | meEncode d => cases h; exact (hret _).trafficOk hs
    | lmpPlay w => exact component (playWord_sameTraffic c w s) (execLmpPlay_next h)
    | scStart => exact fromNew (startSession_advances c) h
    | scIterate => exact fromOpen (iterateSession_advances c) h
    | scTerminate => exact fromOpen (terminateSession_advances c) h
    | scRun => exact fromNew (runSession_advances c) h
    | mwDigit0 | mwDigit1 | mwDigit2 | mwDigit3 | mwDigit4 | mwDigit5 | mwDigit6 | mwDigit7 | mwDigit8 | mwDigit9
    | mwEmpty => cases h; exact (hret _).trafficOk hs
    | kpSlot0Key0 | kpSlot1Key1 | kpSlot2Key2 | kpSlot3Key3 | kpSlot4Key4 | kpSlot5Key5 | kpSlot6Key6 | kpSlot7Key7
    | kpSlot8Key8 | kpSlot9Key9 | kpSlot10KeyA | kpSlot11KeyB | kpSlot12KeyC | kpSlot13KeyD | kpSlot14KeyStar
    | kpSlot15KeyHash => exact component (slotPattern_sameTraffic c _ s) h
    | _ => cases hd
  · exact exec_display_trafficOk hd hs h

/-- What follows an operation of the walk is no traffic. -/
theorem performAfter_trafficOk {c : Chan} {r : Host.Outcome State Fault Refusal} {f : State → Run} {t : State}
    (h : performAfter r f = .next t) (hr : ∀ u, r = .next u → u.TrafficOk c)
    (hf : ∀ u, SameTraffic c u (f u).state) : t.TrafficOk c := by
  cases r with
  | next u =>
    unfold performAfter at h
    dsimp only at h
    split at h
    · exact ((hf u).result h).trafficOk (hr u rfl)
    · cases h; exact hr _ rfl
  | fault e => cases h
  | refused e => cases h

theorem whenReturned_trafficOk {c : Chan} {r : Host.Outcome State Fault Refusal} {g : State → State} {t : State}
    (h : whenReturned r g = .next t) (hr : ∀ u, r = .next u → u.TrafficOk c) (hg : ∀ u, SameTraffic c u (g u)) :
    t.TrafficOk c :=
  performAfter_trafficOk h hr hg

theorem walkMark_trafficOk {c : Chan} {s t : State} (hs : s.TrafficOk c) (h : walkMark s = .next t) :
    t.TrafficOk c := by
  have hafter : ∀ u, SameTraffic c u (afterMark u) := fun u => by
    unfold afterMark
    split
    · exact .of_eq rfl
    · exact setSc_sameTraffic c .play u
  unfold walkMark at h
  split at h
  · exact whenReturned_trafficOk h (fun _ => exec_trafficOk hs) hafter
  · cases h; exact (setSc_sameTraffic c .play s).trafficOk hs

theorem walkCipher_trafficOk {c : Chan} {s t : State} (hs : s.TrafficOk c) (h : walkCipher s = .next t) :
    t.TrafficOk c :=
  whenReturned_trafficOk h (fun _ => exec_trafficOk hs) fun _ => .of_eq rfl

theorem walkEncode_trafficOk {c : Chan} {s t : State} (hs : s.TrafficOk c) (h : walkEncode (walkCipher s) = .next t) :
    t.TrafficOk c := by
  cases hc : walkCipher s with
  | next u =>
    rw [hc] at h
    exact whenReturned_trafficOk h (fun _ => exec_trafficOk (walkCipher_trafficOk hs hc)) fun _ => .of_eq rfl
  | fault e => rw [hc] at h; cases h
  | refused e => rw [hc] at h; cases h

theorem checkPhase_sameTraffic (c : Chan) (s : State) : SameTraffic c s (checkPhase s) := by
  unfold checkPhase
  split
  · exact setSc_sameTraffic c .off1 s
  · split
    · exact setSc_sameTraffic c .wclr1 s
    · exact setSc_sameTraffic c .read s

/-- Every phase of the walk performs an instruction, and then sends nothing. -/
theorem walk_trafficOk {c : Chan} {s t : State} (hs : s.TrafficOk c) (h : walk s = .next t) : t.TrafficOk c := by
  have operation : ∀ {i : Instr} {g : State → State}, whenReturned (exec i s) g = .next t →
      (∀ u, SameTraffic c u (g u)) → t.TrafficOk c := fun ht hg =>
    whenReturned_trafficOk ht (fun _ => exec_trafficOk hs) hg
  unfold walk at h
  generalize s.scPhase = phase at h
  cases phase with
  | reset => cases h; exact (setSc_sameTraffic c .init1 s).trafficOk hs
  | init1 => exact operation h (setSc_sameTraffic c .init2)
  | init2 => exact operation h (setSc_sameTraffic c .check)
  | check => cases h; exact (checkPhase_sameTraffic c s).trafficOk hs
  | wclr1 => exact operation h (setSc_sameTraffic c .wclr2)
  | wclr2 => exact operation h (setSc_sameTraffic c .wsettle)
  | wsettle =>
    exact whenReturned_trafficOk h (fun _ hu => ((windowSettle_sameTraffic c s).result hu).trafficOk hs)
      (setSc_sameTraffic c .read)
  | read => exact operation h fun _ => .of_eq rfl
  | cipher => exact walkEncode_trafficOk hs h
  | ch1pos => exact operation h (setSc_sameTraffic c .ch1wr)
  | ch1wr => exact operation h (setSc_sameTraffic c .ch2clr)
  | ch2clr => exact operation h (setSc_sameTraffic c .ch2dig)
  | ch2dig => exact operation h fun _ => .of_eq rfl
  | ch2mrk => exact walkMark_trafficOk hs h
  | play => exact operation h (setSc_sameTraffic c .adv)
  | adv =>
    have hadvance : SameTraffic c s (setSc .check (advanceCounts s)) := .of_eq rfl
    cases h; exact hadvance.trafficOk hs
  | off1 => exact operation h (setSc_sameTraffic c .off2)
  | off2 => exact performAfter_trafficOk h (fun _ => exec_trafficOk hs) (haltDone_sameTraffic c)
  | halt => cases h; exact hs

theorem scanOn_sameTraffic {c : Chan} {s t : State} (h : scanOn s = .next t) : SameTraffic c s t := by
  have hscan : SameTraffic c s (resumeScan s).state := scanRows_sameTraffic c _ s
  unfold scanOn at h
  cases hr : resumeScan s with
  | done u =>
    rw [hr] at h hscan
    cases h
    refine hscan.trans ?_
    split
    · exact .of_eq rfl
    · exact .refl c u
  | stop u =>
    rw [hr] at h hscan
    cases h
    exact hscan

theorem performSlot_trafficOk {c : Chan} {x : CallSlot} {s t : State} (hs : s.TrafficOk c)
    (h : performSlot x s = .next t) : t.TrafficOk c := by
  have hempty : SameTraffic c s { s with slot := none } := .of_eq rfl
  unfold performSlot at h
  split at h
  · exact exec_trafficOk (hempty.trafficOk hs) h
  · cases h

/-- After reset the trace is empty and no channel is initialised (70_reset_and_hazards.md R267). -/
theorem resetBlock_trafficOk (c : Chan) (s : State) : (resetBlock s).TrafficOk c := by
  have hdrv : (resetBlock s).drv c = .reset := by cases c <;> rfl
  refine ⟨rfl, fun _ => ⟨rfl, by rw [hdrv]; rfl⟩, fun hi => ?_⟩
  rw [hdrv] at hi
  cases hi

/-- Settles O54: by the cases of a step, each of which keeps the traffic in order. -/
theorem trafficIsKept : Obligations.TrafficIsKept := by
  intro s t c hs h
  cases hrst : s.rst with
  | true =>
    rw [step_of_rst (step_build h) hrst] at h
    cases h
    exact resetBlock_trafficOk c s
  | false =>
    rcases step_cases hrst h with ⟨-, rfl⟩ | ⟨-, -, -, hscan⟩ | ⟨-, x, -, hslot⟩ | ⟨-, -, hwalk⟩
    · exact hs
    · exact (scanOn_sameTraffic hscan).trafficOk hs
    · exact performSlot_trafficOk hs hslot
    · exact walk_trafficOk hs hwalk

end Sys2Proof.Machine
end

section
/-! Assembling bytes and taking them apart (30_encoding.md R90, R100, R102): a byte made of fields is known by its
fields. -/

namespace Sys2Proof.Machine

open Sys2Proof.Config

theorem eq_append_iff (m n : Nat) {x : BitVec m} {y : BitVec n} {b : BitVec (m + n)} :
    b = x ++ y ↔ b.extractLsb' n m = x ∧ b.extractLsb' 0 n = y := by
  constructor
  · rintro rfl
    exact ⟨BitVec.extractLsb'_append_eq_left, BitVec.extractLsb'_append_eq_right⟩
  · rintro ⟨rfl, rfl⟩
    exact BitVec.extractLsb'_append_extractLsb'.symm

/-- A narrow operand stands in the low bits of its byte, the bits above it 0 (assumption 3). -/
theorem eq_setWidth_iff (m n : Nat) {d : BitVec m} {b : BitVec (n + m)} :
    b = d.setWidth (n + m) ↔ b.extractLsb' m n = 0 ∧ b.extractLsb' 0 m = d := by
  rw [← eq_append_iff n m, BitVec.setWidth_eq_append (Nat.le_add_left m n)]
  simp

theorem extract_bit_eq_iff {w k : Nat} {b : BitVec w} {t : Bool} :
    b.extractLsb' k 1 = BitVec.ofBool t ↔ b.getLsbD k = t := by
  constructor
  · intro h
    simpa using congrArg (BitVec.getLsbD · 0) h
  · rintro rfl
    ext i hi
    obtain rfl : i = 0 := by omega
    simp

theorem extract_bit_eq_zero_iff {w k : Nat} {b : BitVec w} : b.extractLsb' k 1 = 0#1 ↔ b.getLsbD k = false :=
  extract_bit_eq_iff (t := false)

theorem extract_extract {w i j m n : Nat} (b : BitVec w) (h : i + m ≤ n) :
    (b.extractLsb' j n).extractLsb' i m = b.extractLsb' (j + i) m := by
  ext k hk
  have hlt : i + k < n := by omega
  simp [hlt, Nat.add_assoc]

/-- The fields of an identifier (30_encoding.md R100). -/
theorem eq_opId_iff {b : Byte} {ch : Bool} {unit op : BitVec 3} :
    b = opId ch unit op ↔
      b.getLsbD 7 = false ∧ b.getLsbD 6 = ch ∧ b.extractLsb' 3 3 = unit ∧ b.extractLsb' 0 3 = op := by
  unfold opId
  simp (disch := omega) only [eq_append_iff 5 3, eq_append_iff 2 3, eq_append_iff 1 1, extract_extract,
    extract_bit_eq_iff, extract_bit_eq_zero_iff, and_assoc]

/-- The fields of a frame (30_encoding.md R90, R91). -/
theorem eq_frame_iff {p : Params} {b : Byte} {n : Nibble} {en rs : Bool} :
    b = frame p n en rs ↔
      highNibble b = n ∧ b.getLsbD 3 = p.bl ∧ b.getLsbD 2 = en ∧ b.getLsbD 1 = false ∧ b.getLsbD 0 = rs := by
  unfold frame highNibble
  simp (disch := omega) only [eq_append_iff 7 1, eq_append_iff 6 1, eq_append_iff 5 1, eq_append_iff 4 1,
    extract_extract, extract_bit_eq_iff, extract_bit_eq_zero_iff, and_assoc]

/-- The fields of DCD.SENDNIBBLE's operand byte (30_encoding.md R101; assumption 3). -/
theorem eq_nibbleByte_iff {b : Byte} {rs : Bool} {n : Nibble} :
    b = 0#3 ++ BitVec.ofBool rs ++ n ↔ b.extractLsb' 5 3 = 0 ∧ b.getLsbD 4 = rs ∧ lowNibble b = n := by
  unfold lowNibble
  simp (disch := omega) only [eq_append_iff 4 4, eq_append_iff 3 1, extract_extract, extract_bit_eq_iff, and_assoc,
    BitVec.ofNat_eq_ofNat]

end Sys2Proof.Machine
end

section
/-! The operand bytes of a value (30_encoding.md R80, R101; assumption 3): an operand is decoded from exactly the bytes
that encode it, whatever follows them. -/

namespace Sys2Proof.Machine

open Sys2Proof.Config

theorem ite_ok_eq_ok {ε α : Type} {q : Prop} [Decidable q] {a b : α} {x : Except ε α} :
    (if q then Except.ok a else x) = .ok b ↔ q ∧ a = b ∨ ¬q ∧ x = .ok b := by
  by_cases h : q <;> simp [h]

theorem operandByte_eq_ok {args : List Byte} {b : Byte} : operandByte args = .ok b ↔ ∃ rest, args = b :: rest := by
  cases args <;> simp [operandByte]

theorem operandNibble_eq_ok {args : List Byte} {d : Nibble} :
    operandNibble args = .ok d ↔ ∃ rest, args = d.setWidth 8 :: rest := by
  cases args with
  | nil => simp [operandNibble]
  | cons b rest =>
    have h : b = d.setWidth 8 ↔ highNibble b = 0 ∧ lowNibble b = d := eq_setWidth_iff 4 4
    simpa [operandNibble, ite_ok_eq_ok] using h.symm

theorem operandOffset_eq_ok {args : List Byte} {o : BitVec 2} :
    operandOffset args = .ok o ↔ ∃ rest, args = o.setWidth 8 :: rest := by
  cases args with
  | nil => simp [operandOffset]
  | cons b rest =>
    have h : b = o.setWidth 8 ↔ b.extractLsb' 2 6 = 0 ∧ b.extractLsb' 0 2 = o := eq_setWidth_iff 2 6
    simpa [operandOffset, ite_ok_eq_ok] using h.symm

/-- The operand byte of DCD.SENDNIBBLE: the register select above the nibble, the bits above them 0
(30_encoding.md R101; assumption 3). -/
def operandFrame (args : List Byte) : Except DecodeError (Bool × Nibble) :=
  match args with
  | b :: _ => if b.extractLsb' 5 3 = 0 then .ok (b.getLsbD 4, lowNibble b) else .error .operandOutOfRange
  | [] => .error .truncated

theorem operandFrame_eq_ok {args : List Byte} {rs : Bool} {n : Nibble} :
    operandFrame args = .ok (rs, n) ↔ ∃ rest, args = (0#3 ++ BitVec.ofBool rs ++ n) :: rest := by
  cases args with
  | nil => simp [operandFrame]
  | cons b rest =>
    simpa [operandFrame, ite_ok_eq_ok] using (eq_nibbleByte_iff (b := b) (rs := rs) (n := n)).symm

theorem operandChan_eq_ok {args : List Byte} {c : Chan} :
    operandChan args = .ok c ↔ ∃ rest, args = chanByte c :: rest := by
  cases args with
  | nil => simp [operandChan]
  | cons b rest =>
    simp only [operandChan]
    cases c <;> simp only [chanByte] <;> split_ifs <;> simp_all

theorem leBytes_leValue (bs : List Byte) : leBytes bs.length (leValue bs) = bs := by
  induction bs with
  | nil => rfl
  | cons b bs ih =>
    have hb := b.isLt
    have hlow : BitVec.ofNat 8 (b.toNat + 256 * leValue bs) = b := BitVec.eq_of_toNat_eq (by simp; omega)
    have hdiv : (b.toNat + 256 * leValue bs) / 256 = leValue bs := by omega
    simp only [List.length_cons, leBytes, leValue, hlow, hdiv, ih]

theorem leValue_leBytes {n v : Nat} (h : v < 256 ^ n) : leValue (leBytes n v) = v := by
  induction n generalizing v with
  | zero => exact (Nat.lt_one_iff.1 h).symm
  | succ n ih =>
    have hdiv : v / 256 < 256 ^ n := by rw [pow_succ] at h; omega
    simp only [leBytes, leValue, ih hdiv, BitVec.toNat_ofNat]
    omega

/-- The bytes of a position hold every value of its width. -/
theorem two_pow_posWidth_le (p : Params) : 2 ^ p.posWidth ≤ 256 ^ posBytes p :=
  calc 2 ^ p.posWidth ≤ 2 ^ (8 * posBytes p) := Nat.pow_le_pow_right (by decide) (by unfold posBytes; omega)
    _ = 256 ^ posBytes p := Nat.pow_mul ..

theorem operandPosition_eq_ok {p : Params} {args : List Byte} {q : Position} :
    operandPosition p args = .ok q ↔ q < 2 ^ p.posWidth ∧ ∃ rest, args = leBytes (posBytes p) q ++ rest := by
  simp only [operandPosition]
  constructor
  · intro h
    split_ifs at h with hshort hlt
    cases h
    have hlen : (args.take (posBytes p)).length = posBytes p :=
      Nat.le_antisymm (List.length_take_le ..) (Nat.le_of_not_lt hshort)
    have hbytes := leBytes_leValue (args.take (posBytes p))
    rw [hlen] at hbytes
    exact ⟨hlt, args.drop (posBytes p), by rw [hbytes, List.take_append_drop]⟩
  · rintro ⟨hq, rest, rfl⟩
    have hlen := Laws.EncodeFits.leBytes_length (posBytes p) q
    rw [List.take_left' hlen, leValue_leBytes (hq.trans_le (two_pow_posWidth_le p)), hlen]
    simp [hq]

end Sys2Proof.Machine
end

section
/-! The tables of a build the spec admits: each keypad pattern is in one slot (20_memory.md R55, 30_encoding.md R84),
each command byte is one command (30_encoding.md R92, R93). -/

namespace Sys2Proof.Machine

open Sys2Proof.Config

/-! ### The keypad table -/

theorem findSlot_eq_some {pat : Byte} {l : List KeySlot} {i j : Nat} (h : findSlot pat l i = some j) :
    ∃ k, j = i + k ∧ ∃ hk : k < l.length, l[k].pattern = pat := by
  induction l generalizing i j with
  | nil => cases h
  | cons x ks ih =>
    rw [findSlot] at h
    split at h
    · next j' hj =>
      obtain ⟨k, hk, hlt, hpat⟩ := ih hj
      cases h
      exact ⟨k + 1, by omega, Nat.succ_lt_succ hlt, hpat⟩
    · split_ifs at h with hx
      cases h
      exact ⟨0, rfl, Nat.zero_lt_succ _, hx⟩

theorem mem_patterns_of_findSlot_none {pat : Byte} {l : List KeySlot} {i : Nat} (h : findSlot pat l i = none) :
    pat ∉ l.map (·.pattern) := by
  induction l generalizing i with
  | nil => exact List.not_mem_nil
  | cons x ks ih =>
    rw [findSlot] at h
    split at h
    · cases h
    · next hks =>
      split_ifs at h with hx
      simpa using ⟨Ne.symm hx, by simpa using ih hks⟩

/-- In a build the spec admits the table search finds the one slot that holds the pattern. -/
theorem findSlot_keymap_iff {p : Params} (hwf : p.wf = true) {pat : Byte} {k : Nat} :
    findSlot pat p.keymap 0 = some k ↔ k < 16 ∧ (keymapRom p k).pattern = pat := by
  obtain ⟨-, -, -, hsize, hdistinct, -⟩ := checks_of_wf hwf
  have hlen : p.keymap.length = 16 := by simpa [Params.keymapSizeOk] using hsize
  have hnodup : (p.keymap.map (·.pattern)).Nodup := of_decide_eq_true hdistinct
  have hrom : ∀ {j : Nat} (hj : j < p.keymap.length), keymapRom p j = p.keymap[j] := fun hj =>
    List.getD_eq_getElem _ _ hj
  have hfound : ∀ {j : Nat}, findSlot pat p.keymap 0 = some j →
      j < p.keymap.length ∧ (keymapRom p j).pattern = pat := by
    intro j h
    obtain ⟨j', rfl, hlt, hpat⟩ := findSlot_eq_some h
    rw [Nat.zero_add, hrom hlt]
    exact ⟨hlt, hpat⟩
  rw [← hlen]
  refine ⟨hfound, fun ⟨hlt, hpat⟩ => ?_⟩
  cases hs : findSlot pat p.keymap 0 with
  | none =>
    refine absurd (List.mem_map.2 ⟨_, List.getElem_mem hlt, ?_⟩) (mem_patterns_of_findSlot_none hs)
    rw [← hrom hlt, hpat]
  | some j =>
    obtain ⟨hj, hpatj⟩ := hfound hs
    rw [hrom hlt] at hpat
    rw [hrom hj] at hpatj
    exact congrArg some ((List.Nodup.getElem_inj_iff hnodup (hi := by simpa using hj) (hj := by simpa using hlt)).1
      (by simpa using hpatj.trans hpat.symm))

theorem kpInstr_eq_ok {k : Nat} {i : Instr} : kpInstr k = .ok i ↔ (k, i) ∈ slotInstrs := by
  constructor
  · intro h
    unfold kpInstr at h
    split at h <;> cases h <;> decide
  · intro h
    simp only [slotInstrs, List.mem_cons, Prod.mk.injEq, List.not_mem_nil, or_false] at h
    rcases h with h | h | h | h | h | h | h | h | h | h | h | h | h | h | h | h <;> obtain ⟨rfl, rfl⟩ := h <;> rfl

/-- A pattern's row: its slot is one of the 16, its value is the slot's pattern (30_encoding.md R84), and its meaning is
the slot's lookup (assumption 20). -/
structure IsSlotRow (k : Nat) (i : Instr) : Prop where
  slot : k < 16
  format : i.format = .kp
  operandsFit : ∀ p, i.operandsFit p = true
  encode : ∀ p, encode p i = [(keymapRom p k).pattern]
  exec : ∀ s, exec i s = (slotPattern k s).result

theorem isSlotRow {k : Nat} {i : Instr} (h : (k, i) ∈ slotInstrs) : IsSlotRow k i := by
  simp only [slotInstrs, List.mem_cons, Prod.mk.injEq, List.not_mem_nil, or_false] at h
  rcases h with h | h | h | h | h | h | h | h | h | h | h | h | h | h | h | h <;> obtain ⟨rfl, rfl⟩ := h <;>
    exact ⟨by decide, rfl, fun _ => rfl, fun _ => rfl, fun _ => rfl⟩

/-! ### The command bytes -/

theorem cursorCommand_inj {p : Params} {o o' : BitVec 2} : cursorCommand p o = cursorCommand p o' ↔ o = o' := by
  unfold cursorCommand
  constructor
  · intro h
    bv_omega
  · rintro rfl; rfl

/-- The offset a command byte names is the one whose command it is (30_encoding.md R93). -/
theorem cursorOffset_eq_some {p : Params} {b : Byte} {o : BitVec 2} :
    cursorOffset p b = some o ↔ b = cursorCommand p o := by
  constructor
  · intro h
    unfold cursorOffset at h
    split_ifs at h with h0 h1 h2 h3 <;> cases h <;> assumption
  · rintro rfl
    have ho : o = 0 ∨ o = 1 ∨ o = 2 ∨ o = 3 := by revert o; decide
    unfold cursorOffset
    rcases ho with rfl | rfl | rfl | rfl <;> simp [cursorCommand_inj]

/-- The commands of a build the spec admits are pairwise different (30_encoding.md R92). -/
theorem commands_distinct {p : Params} (hwf : p.wf = true) :
    p.cmdHome ≠ p.cmdClear ∧ p.cmdDisplayOff ≠ p.cmdClear ∧ p.cmdDisplayOff ≠ p.cmdHome ∧
      ∀ o, cursorCommand p o ≠ p.cmdClear ∧ cursorCommand p o ≠ p.cmdHome ∧ cursorCommand p o ≠ p.cmdDisplayOff := by
  obtain ⟨hhome, hoff, hcursor⟩ := cmdClear_distinct hwf
  obtain ⟨-, -, -, -, -, -, -, -, -, hok⟩ := checks_of_wf hwf
  simp only [Params.commandsOk, List.nodup_cons, List.mem_cons, List.not_mem_nil, or_false, not_or,
    decide_eq_true_eq] at hok
  obtain ⟨-, ⟨hhomeoff, hh0, hh1, hh2, hh3⟩, ⟨ho0, ho1, ho2, ho3⟩, -⟩ := hok
  refine ⟨hhome, hoff, Ne.symm hhomeoff, fun o => ⟨hcursor o, ?_⟩⟩
  have ho : o = 0 ∨ o = 1 ∨ o = 2 ∨ o = 3 := by revert o; decide
  rcases ho with rfl | rfl | rfl | rfl
  exacts [⟨Ne.symm hh0, Ne.symm ho0⟩, ⟨Ne.symm hh1, Ne.symm ho1⟩, ⟨Ne.symm hh2, Ne.symm ho2⟩,
    ⟨Ne.symm hh3, Ne.symm ho3⟩]

end Sys2Proof.Machine
end

section
/-! Decoding and encoding (30_encoding.md R80, R103): what is read in a format is an instruction of that format, and the
bytes read are its encoding; what is encoded is read back. -/

namespace Sys2Proof.Machine

open Sys2Proof.Config

theorem except_map_eq_ok {ε α β : Type} {x : Except ε α} {f : α → β} {b : β} :
    x.map f = .ok b ↔ ∃ a, x = .ok a ∧ f a = b := by
  cases x <;> simp [Except.map]

/-- The bytes begin with the encoding of `i`, an instruction of the format with operands of the build's widths. -/
def BeginsWith (p : Params) (f : Format) (i : Instr) (bs : List Byte) : Prop :=
  i.format = f ∧ i.operandsFit p = true ∧ ∃ rest, bs = encode p i ++ rest

/-- A value with one operand byte after its first byte. -/
theorem BeginsWith.of_map {α : Type} {p : Params} {f : Format} {i : Instr} {b : Byte} {args : List Byte}
    {read : List Byte → Except DecodeError α} {byte : α → Byte} {k : α → Instr} (h : (read args).map k = .ok i)
    (hread : ∀ a, read args = .ok a ↔ ∃ rest, args = byte a :: rest)
    (hk : ∀ a, (k a).format = f ∧ (k a).operandsFit p = true ∧ encode p (k a) = [b, byte a]) :
    BeginsWith p f i (b :: args) := by
  obtain ⟨a, ha, rfl⟩ := except_map_eq_ok.1 h
  obtain ⟨rest, rfl⟩ := (hread a).1 ha
  obtain ⟨hformat, hfit, hbytes⟩ := hk a
  exact ⟨hformat, hfit, rest, by rw [hbytes]; rfl⟩

/-! ### Format OP -/

theorem decodeDcd1_two (args : List Byte) :
    decodeDcd1 2 args = (operandFrame args).map fun x => .dcdSendnibbleCh1 x.2 x.1 := by
  cases args with
  | nil => rfl
  | cons b rest => simp only [decodeDcd1, operandFrame]; split <;> rfl

theorem decodeDcd2_two (args : List Byte) :
    decodeDcd2 2 args = (operandFrame args).map fun x => .dcdSendnibbleCh2 x.2 x.1 := by
  cases args with
  | nil => rfl
  | cons b rest => simp only [decodeDcd2, operandFrame]; split <;> rfl

theorem decodeDcd_beginsWith (p : Params) {ch : Bool} {op : Nat} {args : List Byte} {i : Instr}
    (h : (if ch then decodeDcd2 op args else decodeDcd1 op args) = .ok i) :
    BeginsWith p .op i (opId ch 3 (BitVec.ofNat 3 op) :: args) := by
  match ch, op with
  | false, 0 | true, 0 | false, 5 | true, 5 | false, 7 | true, 7 => cases h; exact ⟨rfl, rfl, args, rfl⟩
  | false, 1 | true, 1 | false, 3 | true, 3 | false, 4 | true, 4 =>
    exact .of_map h (fun _ => operandByte_eq_ok) fun _ => ⟨rfl, rfl, rfl⟩
  | false, 2 =>
    exact .of_map ((decodeDcd1_two args).symm.trans h) (fun _ => operandFrame_eq_ok) fun _ => ⟨rfl, rfl, rfl⟩
  | true, 2 =>
    exact .of_map ((decodeDcd2_two args).symm.trans h) (fun _ => operandFrame_eq_ok) fun _ => ⟨rfl, rfl, rfl⟩
  | false, 6 | true, 6 => exact .of_map h (fun _ => operandOffset_eq_ok) fun _ => ⟨rfl, rfl, rfl⟩
  | false, _ + 8 | true, _ + 8 => cases h

/-- CE.ENCRYPT is decoded from its two operands (30_encoding.md R101). -/
theorem decodeOther_encrypt {p : Params} {args : List Byte} {i : Instr} :
    decodeOther p 1 0 args = .ok i ↔
      ∃ d q, i = .ceEncrypt d q ∧ operandNibble args = .ok d ∧ operandPosition p (args.drop 1) = .ok q := by
  simp only [decodeOther]
  cases operandNibble args with
  | error e => simp
  | ok d =>
    cases operandPosition p (args.drop 1) with
    | error e => simp
    | ok q => simp [eq_comm]

theorem decodeOther_beginsWith {p : Params} {unit op : Nat} {args : List Byte} {i : Instr}
    (h : decodeOther p unit op args = .ok i) :
    BeginsWith p .op i (opId false (BitVec.ofNat 3 unit) (BitVec.ofNat 3 op) :: args) := by
  match unit, op with
  | 0, 0 | 5, 0 | 5, 1 | 5, 2 | 5, 3 => cases h; exact ⟨rfl, rfl, args, rfl⟩
  | 1, 0 =>
    obtain ⟨d, q, rfl, hd, hq⟩ := decodeOther_encrypt.1 h
    obtain ⟨rest, rfl⟩ := operandNibble_eq_ok.1 hd
    obtain ⟨hlt, rest', rfl⟩ := operandPosition_eq_ok.1 hq
    exact ⟨rfl, decide_eq_true hlt, rest', rfl⟩
  | 2, 0 => exact .of_map h (fun _ => operandNibble_eq_ok) fun _ => ⟨rfl, rfl, rfl⟩
  | 4, 0 => exact .of_map h (fun _ => operandByte_eq_ok) fun _ => ⟨rfl, rfl, rfl⟩
  | 0, _ + 1 | 1, _ + 1 | 2, _ + 1 | 3, _ | 4, _ + 1 | 5, _ + 4 | 6, _ | 7, _ | _ + 8, _ => cases h

/-- An identifier with bit 7 clear is known by its channel, unit and operation (30_encoding.md R100). -/
theorem eq_opId {b : Byte} (h7 : b.getLsbD 7 = false) :
    b = opId (b.getLsbD 6) (BitVec.ofNat 3 (opUnit b)) (BitVec.ofNat 3 (opCode b)) :=
  eq_opId_iff.2 ⟨h7, rfl, by rw [opUnit, BitVec.ofNat_toNat, BitVec.setWidth_eq],
    by rw [opCode, BitVec.ofNat_toNat, BitVec.setWidth_eq]⟩

/-- Everything format OP can read: an operation of DCD on one of its channels, or an operation of another unit on no
channel (30_encoding.md R101, R103). -/
theorem decodeOp_cases {p : Params} {b : Byte} {args : List Byte} {i : Instr} (h : decodeOp p b args = .ok i) :
    b.getLsbD 7 = false ∧
      ((opUnit b = 3 ∧ (if b.getLsbD 6 then decodeDcd2 (opCode b) args else decodeDcd1 (opCode b) args) = .ok i) ∨
        (b.getLsbD 6 = false ∧ decodeOther p (opUnit b) (opCode b) args = .ok i)) := by
  unfold decodeOp at h
  by_cases h7 : b.getLsbD 7 = true
  · rw [if_pos h7] at h; cases h
  · rw [if_neg h7] at h
    refine ⟨Bool.eq_false_iff.2 h7, ?_⟩
    by_cases hunit : opUnit b = 3
    · rw [if_pos hunit] at h
      exact .inl ⟨hunit, h⟩
    · rw [if_neg hunit] at h
      by_cases h6 : b.getLsbD 6 = true
      · rw [if_pos h6] at h; cases h
      · rw [if_neg h6] at h
        exact .inr ⟨Bool.eq_false_iff.2 h6, h⟩

theorem decodeOp_beginsWith {p : Params} {b : Byte} {args : List Byte} {i : Instr} (h : decodeOp p b args = .ok i) :
    BeginsWith p .op i (b :: args) := by
  obtain ⟨h7, ⟨hunit, hdcd⟩ | ⟨h6, hother⟩⟩ := decodeOp_cases h
  · have hb := eq_opId h7
    rw [hunit] at hb
    rw [hb]
    exact decodeDcd_beginsWith p hdcd
  · have hb := eq_opId h7
    rw [h6] at hb
    rw [hb]
    exact decodeOther_beginsWith hother

/-! ### The other formats -/

/-- A command byte is read as the first of the commands it is (30_encoding.md R92, R93). -/
theorem decodeCommand_eq (p : Params) (c : Chan) (b : Byte) :
    decodeCommand p c b =
      if b = p.cmdClear then .ok (.dcClear c)
      else if b = p.cmdHome then .ok (.dcHome c)
      else if b = p.cmdDisplayOff then .ok (.dcDisplayoff c)
      else match cursorOffset p b with
        | some o => .ok (.dcSetcursor c o)
        | none => .error .unlistedCommand := by
  unfold decodeCommand cursorOffset
  split_ifs <;> rfl

theorem decodeCommand_beginsWith {p : Params} {c : Chan} {b : Byte} {i : Instr} (rest : List Byte)
    (h : decodeCommand p c b = .ok i) : BeginsWith p .dc i (b :: 0 :: chanByte c :: rest) := by
  rw [decodeCommand_eq] at h
  split_ifs at h with hclear hhome hoff
  · cases h; subst hclear; exact ⟨rfl, rfl, rest, rfl⟩
  · cases h; subst hhome; exact ⟨rfl, rfl, rest, rfl⟩
  · cases h; subst hoff; exact ⟨rfl, rfl, rest, rfl⟩
  · cases ho : cursorOffset p b with
    | none => rw [ho] at h; cases h
    | some o =>
      rw [ho] at h
      cases h
      rw [cursorOffset_eq_some.1 ho]
      exact ⟨rfl, rfl, rest, rfl⟩

theorem decodeDc_beginsWith {p : Params} {bs : List Byte} {i : Instr} (h : decodeDc p bs = .ok i) :
    BeginsWith p .dc i bs := by
  match bs with
  | [] => cases h
  | [b] => cases h
  | b :: r :: args =>
    simp only [decodeDc] at h
    split at h
    · cases h
    · next c hc =>
      obtain ⟨rest, rfl⟩ := operandChan_eq_ok.1 hc
      split_ifs at h with hr0 hr1
      · subst hr0; exact decodeCommand_beginsWith rest h
      · cases h; subst hr1; exact ⟨rfl, rfl, rest, rfl⟩

theorem decodeMw_beginsWith (p : Params) {b : Byte} {args : List Byte} {i : Instr} (h : decodeMw b = .ok i) :
    BeginsWith p .mw i (b :: args) := by
  have hrejected : (if 6 ≤ markCount b then Except.error DecodeError.reservedMorseLength
      else .error .unlistedMorseWord) ≠ .ok i := by split <;> nofun
  simp only [decodeMw, ite_ok_eq_ok, hrejected, and_false, or_false] at h
  rcases h with ⟨rfl, rfl⟩ | ⟨-, ⟨rfl, rfl⟩ | ⟨-, ⟨rfl, rfl⟩ | ⟨-, ⟨rfl, rfl⟩ | ⟨-, ⟨rfl, rfl⟩ | ⟨-, ⟨rfl, rfl⟩ |
    ⟨-, ⟨rfl, rfl⟩ | ⟨-, ⟨rfl, rfl⟩ | ⟨-, ⟨rfl, rfl⟩ | ⟨-, ⟨rfl, rfl⟩ | ⟨-, rfl, rfl⟩⟩⟩⟩⟩⟩⟩⟩⟩⟩
  all_goals exact ⟨rfl, rfl, args, rfl⟩

theorem decodeBf_beginsWith {p : Params} {bs : List Byte} {i : Instr} (h : decodeBf p bs = .ok i) :
    BeginsWith p .bf i bs := by
  match bs with
  | [] => cases h
  | b :: args =>
    simp only [decodeBf] at h
    split at h
    · cases h
    · next c hc =>
      obtain ⟨rest, rfl⟩ := operandChan_eq_ok.1 hc
      split_ifs at h with hrw hbl hrs
      · cases h
        have hb : b = frame p (highNibble b) (b.getLsbD 2) true :=
          eq_frame_iff.2 ⟨rfl, hbl, rfl, Bool.eq_false_iff.2 hrw, hrs⟩
        exact ⟨rfl, rfl, rest, congrArg (· :: chanByte c :: rest) hb⟩
      · cases h
        have hb : b = frame p (highNibble b) (b.getLsbD 2) false :=
          eq_frame_iff.2 ⟨rfl, hbl, rfl, Bool.eq_false_iff.2 hrw, Bool.eq_false_iff.2 hrs⟩
        exact ⟨rfl, rfl, rest, congrArg (· :: chanByte c :: rest) hb⟩

theorem decodeKp_beginsWith {p : Params} {b : Byte} {args : List Byte} {i : Instr} (hwf : p.wf = true)
    (h : decodeKp p b = .ok i) : BeginsWith p .kp i (b :: args) := by
  unfold decodeKp at h
  split at h
  · next k hk =>
    have hrow := isSlotRow (kpInstr_eq_ok.1 h)
    obtain ⟨-, rfl⟩ := (findSlot_keymap_iff hwf).1 hk
    exact ⟨hrow.format, hrow.operandsFit p, args, by rw [hrow.encode]; rfl⟩
  · cases h

theorem decode_beginsWith {p : Params} {f : Format} {bs : List Byte} {i : Instr} (hwf : p.wf = true)
    (h : decode p f bs = .ok i) : BeginsWith p f i bs := by
  match f, bs with
  | .op, [] | .dc, [] | .mw, [] | .bf, [] | .kp, [] => cases h
  | .op, b :: args => exact decodeOp_beginsWith h
  | .dc, b :: args => exact decodeDc_beginsWith h
  | .mw, b :: args => exact decodeMw_beginsWith p h
  | .bf, b :: args => exact decodeBf_beginsWith h
  | .kp, b :: args => exact decodeKp_beginsWith hwf h

/-- Settles O7: each format's decoder reads the encoding of what it answers. -/
theorem encodeOfDecode : Obligations.EncodeOfDecode := fun _ _ _ _ hwf h => decode_beginsWith hwf h

/-! ### Encoded values are read back -/

theorem decodeCommand_clear (p : Params) (c : Chan) : decodeCommand p c p.cmdClear = .ok (.dcClear c) := by
  simp [decodeCommand_eq]

theorem decodeCommand_home {p : Params} (hwf : p.wf = true) (c : Chan) :
    decodeCommand p c p.cmdHome = .ok (.dcHome c) := by
  obtain ⟨hhome, -⟩ := commands_distinct hwf
  simp [decodeCommand_eq, hhome]

theorem decodeCommand_displayOff {p : Params} (hwf : p.wf = true) (c : Chan) :
    decodeCommand p c p.cmdDisplayOff = .ok (.dcDisplayoff c) := by
  obtain ⟨-, hclear, hhome, -⟩ := commands_distinct hwf
  simp [decodeCommand_eq, hclear, hhome]

theorem decodeCommand_setCursor {p : Params} (hwf : p.wf = true) (c : Chan) (o : BitVec 2) :
    decodeCommand p c (cursorCommand p o) = .ok (.dcSetcursor c o) := by
  obtain ⟨-, -, -, hcursor⟩ := commands_distinct hwf
  obtain ⟨hclear, hhome, hoff⟩ := hcursor o
  simp [decodeCommand_eq, hclear, hhome, hoff, cursorOffset_eq_some.2 rfl]

theorem decode_encrypt {p : Params} {d : Nibble} {q : Position} (hq : q < 2 ^ p.posWidth) (rest : List Byte) :
    decode p .op (encode p (.ceEncrypt d q) ++ rest) = .ok (.ceEncrypt d q) :=
  decodeOther_encrypt.2 ⟨d, q, rfl, operandNibble_eq_ok.2 ⟨_, rfl⟩, operandPosition_eq_ok.2 ⟨hq, rest, rfl⟩⟩

/-- A display command or character is its byte, its register select and its channel (30_encoding.md R92;
assumption 3). -/
theorem decodeDc_command (p : Params) (c : Chan) (b : Byte) (rest : List Byte) :
    decodeDc p (b :: 0 :: chanByte c :: rest) = decodeCommand p c b := by
  simp [decodeDc, operandChan_eq_ok.2 ⟨rest, rfl⟩]

theorem decodeDc_character (p : Params) (c : Chan) (b : Byte) (rest : List Byte) :
    decodeDc p (b :: 1 :: chanByte c :: rest) = .ok (.dcWritechar c b) := by
  simp [decodeDc, operandChan_eq_ok.2 ⟨rest, rfl⟩]

theorem decodeBf_frame (p : Params) (c : Chan) (n : Nibble) (en rs : Bool) (rest : List Byte) :
    decodeBf p (frame p n en rs :: chanByte c :: rest) =
      .ok (if rs then .bfCharacter c n en else .bfCommand c n en) := by
  obtain ⟨hn, hbl, hen, hrw, hrs⟩ := eq_frame_iff.1 (Eq.refl (frame p n en rs))
  simp only [decodeBf, operandChan_eq_ok.2 ⟨rest, rfl⟩, hn, hbl, hen, hrw, hrs]
  cases rs <;> simp

theorem decodeKp_slot {p : Params} (hwf : p.wf = true) {k : Nat} {i : Instr} (h : (k, i) ∈ slotInstrs) :
    decodeKp p (keymapRom p k).pattern = .ok i := by
  rw [decodeKp, (findSlot_keymap_iff hwf).2 ⟨(isSlotRow h).slot, rfl⟩]
  exact kpInstr_eq_ok.2 h

theorem decode_encode {p : Params} {i : Instr} (hwf : p.wf = true) (hfit : i.operandsFit p = true) (rest : List Byte) :
    decode p i.format (encode p i ++ rest) = .ok i := by
  cases i with
  | ceEncrypt d q => exact decode_encrypt (of_decide_eq_true hfit) rest
  | meEncode d => exact except_map_eq_ok.2 ⟨d, operandNibble_eq_ok.2 ⟨rest, rfl⟩, rfl⟩
  | dcdSendnibbleCh1 n rs =>
    exact (decodeDcd1_two _).trans (except_map_eq_ok.2 ⟨(rs, n), operandFrame_eq_ok.2 ⟨rest, rfl⟩, rfl⟩)
  | dcdSendnibbleCh2 n rs =>
    exact (decodeDcd2_two _).trans (except_map_eq_ok.2 ⟨(rs, n), operandFrame_eq_ok.2 ⟨rest, rfl⟩, rfl⟩)
  | dcdMovecursorCh1 o => exact except_map_eq_ok.2 ⟨o, operandOffset_eq_ok.2 ⟨rest, rfl⟩, rfl⟩
  | dcdMovecursorCh2 o => exact except_map_eq_ok.2 ⟨o, operandOffset_eq_ok.2 ⟨rest, rfl⟩, rfl⟩
  | dcClear c => exact (decodeDc_command p c _ rest).trans (decodeCommand_clear p c)
  | dcHome c => exact (decodeDc_command p c _ rest).trans (decodeCommand_home hwf c)
  | dcSetcursor c o => exact (decodeDc_command p c _ rest).trans (decodeCommand_setCursor hwf c o)
  | dcDisplayoff c => exact (decodeDc_command p c _ rest).trans (decodeCommand_displayOff hwf c)
  | dcWritechar c b => exact decodeDc_character p c b rest
  | bfCommand c n en => exact decodeBf_frame p c n en false rest
  | bfCharacter c n en => exact decodeBf_frame p c n en true rest
  | kpSlot0Key0 => exact decodeKp_slot hwf (k := 0) (by decide)
  | kpSlot1Key1 => exact decodeKp_slot hwf (k := 1) (by decide)
  | kpSlot2Key2 => exact decodeKp_slot hwf (k := 2) (by decide)
  | kpSlot3Key3 => exact decodeKp_slot hwf (k := 3) (by decide)
  | kpSlot4Key4 => exact decodeKp_slot hwf (k := 4) (by decide)
  | kpSlot5Key5 => exact decodeKp_slot hwf (k := 5) (by decide)
  | kpSlot6Key6 => exact decodeKp_slot hwf (k := 6) (by decide)
  | kpSlot7Key7 => exact decodeKp_slot hwf (k := 7) (by decide)
  | kpSlot8Key8 => exact decodeKp_slot hwf (k := 8) (by decide)
  | kpSlot9Key9 => exact decodeKp_slot hwf (k := 9) (by decide)
  | kpSlot10KeyA => exact decodeKp_slot hwf (k := 10) (by decide)
  | kpSlot11KeyB => exact decodeKp_slot hwf (k := 11) (by decide)
  | kpSlot12KeyC => exact decodeKp_slot hwf (k := 12) (by decide)
  | kpSlot13KeyD => exact decodeKp_slot hwf (k := 13) (by decide)
  | kpSlot14KeyStar => exact decodeKp_slot hwf (k := 14) (by decide)
  | kpSlot15KeyHash => exact decodeKp_slot hwf (k := 15) (by decide)
  | _ => rfl

/-- Settles O6: by the rows of the encoding; the rows whose operands are whole bytes compute. -/
theorem decodeOfEncode : Obligations.DecodeOfEncode := fun _ _ rest hwf hfit => decode_encode hwf hfit rest

end Sys2Proof.Machine
end

section
/-! The identifiers of format OP (30_encoding.md R100, R101, R103), and worked words of every format. -/

namespace Sys2Proof.Machine

open Sys2Proof.Config

/-- The (`unit`, `op`) pairs of R101 outside DCD. -/
theorem decodeOther_rows {p : Params} {unit op : Nat} {args : List Byte} {i : Instr}
    (h : decodeOther p unit op args = .ok i) :
    (unit, op) ∈ [(0, 0), (1, 0), (2, 0), (4, 0), (5, 0), (5, 1), (5, 2), (5, 3)] := by
  match unit, op with
  | 0, 0 | 1, 0 | 2, 0 | 4, 0 | 5, 0 | 5, 1 | 5, 2 | 5, 3 => decide
  | 0, _ + 1 | 1, _ + 1 | 2, _ + 1 | 3, _ | 4, _ + 1 | 5, _ + 4 | 6, _ | 7, _ | _ + 8, _ => cases h

/-- The 24 identifiers of 30_encoding.md R101. -/
def operationIds : List Byte :=
  [0x00#8, 0x08#8, 0x10#8, 0x18#8, 0x19#8, 0x1A#8, 0x1B#8, 0x1C#8, 0x1D#8, 0x1E#8, 0x1F#8, 0x20#8,
   0x28#8, 0x29#8, 0x2A#8, 0x2B#8, 0x58#8, 0x59#8, 0x5A#8, 0x5B#8, 0x5C#8, 0x5D#8, 0x5E#8, 0x5F#8]

theorem mem_operationIds_of_decodeOp {p : Params} {b : Byte} {args : List Byte} {i : Instr}
    (h : decodeOp p b args = .ok i) : b ∈ operationIds := by
  obtain ⟨h7, ⟨hunit, -⟩ | ⟨h6, hother⟩⟩ := decodeOp_cases h
  · have hdcd : ∀ ch op, opId ch 3 op ∈ operationIds := by decide
    have hb := eq_opId h7
    rw [hunit] at hb
    rw [hb]
    exact hdcd _ _
  · have hrows : ∀ x ∈ [(0, 0), (1, 0), (2, 0), (4, 0), (5, 0), (5, 1), (5, 2), (5, 3)],
        opId false (BitVec.ofNat 3 x.1) (BitVec.ofNat 3 x.2) ∈ operationIds := by decide
    have hb := eq_opId h7
    rw [h6] at hb
    rw [hb]
    exact hrows (opUnit b, opCode b) (decodeOther_rows hother)

theorem decodes_of_mem_operationIds (p : Params) :
    ∀ b ∈ operationIds, ∃ args i, decode p .op (b :: args) = .ok i := by
  simp only [operationIds, List.forall_mem_cons, List.not_mem_nil, false_implies, implies_true, and_true]
  refine ⟨⟨[0], _, rfl⟩, ⟨_, _, decode_encrypt (d := 0) (Nat.two_pow_pos p.posWidth) []⟩, ?_⟩
  and_intros
  all_goals exact ⟨[0], _, rfl⟩

/-- Settles O8: a decoded identifier is one of R101's rows, and each row is decoded with operands 0. -/
theorem operationIdentifiers : Obligations.OperationIdentifiers := fun p _ =>
  ⟨fun ⟨_, _, h⟩ => mem_operationIds_of_decodeOp h, decodes_of_mem_operationIds p _⟩

/-- Settles O5: each word is evaluated by the decoder of the default build. -/
theorem decodedWords : Obligations.DecodedWords :=
  ⟨rfl, rfl, rfl, rfl, rfl, rfl, rfl, rfl, rfl, rfl, rfl, rfl⟩

end Sys2Proof.Machine
end

section
/-! What a step performs of what is presented to it (assumptions 1, 2, 27): an open block performs the decoded value,
and `withFetchWord` opens the block. -/

namespace Sys2Proof.Machine

open Sys2Proof.Config

/-- A presented value the decoder accepts is performed alone, the slot emptied. -/
theorem performSlot_of_ok {s : State} {c : CallSlot} {i : Instr} (h : decode s.cfg c.format c.bytes = .ok i) :
    performSlot c s = exec i { s with slot := none } := by
  simp [performSlot, fetchInstr, h]

theorem step_of_presented {s : State} {c : CallSlot} {i : Instr} (ho : s.open) (hc : s.slot = some c)
    (h : decode s.cfg c.format c.bytes = .ok i) : step s = exec i { s with slot := none } :=
  (step_of_open_slot ho hc).trans (performSlot_of_ok h)

/-- Settles O9: an open block's step is the presented value's, and that is the decoded instruction. -/
theorem stepRunsPresented : Obligations.StepRunsPresented := fun _ _ _ ho hc h => step_of_presented ho hc h

/-- The block is open once it has been cleared, whatever it was doing (assumption 27). -/
theorem withFetchWord_open {s : State} (hwf : s.cfg.wf = true) (nbits w : Nat) : (s.withFetchWord nbits w).open := by
  refine ⟨hwf, rfl, ?_⟩
  have hphase : (if s.scPhase = .halt then ScPhase.reset else s.scPhase) ≠ .halt := by split <;> simp_all
  simpa [State.withFetchWord, clearToPerform, State.free, State.stalled, State.scanning, State.halted] using hphase

/-- A table word that decodes decodes in the format its slot is given (assumption 2). -/
theorem decode_slotOfWord {s : State} {nbits w : Nat} {i : Instr} (hcfg : s.cfg = Config.default)
    (h : decodeTableWord nbits w = some i) :
    decode s.cfg (slotOfWord s nbits w).format (slotOfWord s nbits w).bytes = .ok i := by
  simp only [slotOfWord, hcfg]
  simp only [decodeTableWord] at h
  split at h
  · next hdecode => cases h; exact hdecode
  · cases h

/-- Settles O10: the cleared block is open, and its slot decodes to the word's instruction. -/
theorem withFetchWordRuns : Obligations.WithFetchWordRuns := by
  intro s nbits w i hcfg h
  have hwf : s.cfg.wf = true := by rw [hcfg]; decide
  exact step_of_presented (withFetchWord_open hwf nbits w) rfl (decode_slotOfWord hcfg h)

end Sys2Proof.Machine
end

section
/-! The rows of the keypad and the Morse table (30_encoding.md R84, R98; assumptions 19, 20). -/

namespace Sys2Proof.Machine

open Sys2Proof.Config

theorem keymapRom_zero_digit {p : Params} (hwf : p.wf = true) : (keymapRom p 0).digit = 0 := by
  obtain ⟨-, -, -, -, -, hok, -⟩ := checks_of_wf hwf
  simp only [Params.keymapSlot0Ok, Bool.and_eq_true, beq_iff_eq] at hok
  exact hok.2

/-- What the search makes of a slot's own pattern: the slot, if it is a digit slot (40_keypad_scanner.md R127). -/
theorem digitSlot_pattern {p : Params} (hwf : p.wf = true) {k : Nat} (hk : k < 16) :
    digitSlot p (keymapRom p k).pattern = if (keymapRom p k).isDigit then some k else none := by
  rw [digitSlot, (findSlot_keymap_iff hwf).2 ⟨hk, rfl⟩]

/-- The state a captured pattern of slot `k` leaves (40_keypad_scanner.md R127, R128). -/
theorem afterLookup_pattern {s : State} (hwf : s.cfg.wf = true) {k : Nat} (hk : k < 16) :
    afterLookup (keymapRom s.cfg k).pattern s =
      { s with ksPat := (keymapRom s.cfg k).pattern, ksSlot := BitVec.ofNat 4 k, ksPhase := .idle,
               ret := .digit (if (keymapRom s.cfg k).isDigit then (keymapRom s.cfg k).digit else 0),
               stNomatch := s.stNomatch || !(keymapRom s.cfg k).isDigit,
               events := s.events ++
                 if (keymapRom s.cfg k).isDigit then [] else [.noMatch (keymapRom s.cfg k).pattern] } := by
  have hslot := (findSlot_keymap_iff hwf).2 ⟨hk, rfl⟩
  simp only [afterLookup, patternDigit, noMatchEvents, digitSlot_pattern hwf hk, hslot]
  cases (keymapRom s.cfg k).isDigit with
  | true => simp
  | false => simp [keymapRom_zero_digit hwf]

/-- Settles O17: a row is its slot's lookup, and the search finds that slot. -/
theorem keypadPatternRows : Obligations.KeypadPatternRows := by
  intro s k i hwf hr hi
  have hrow := isSlotRow hi
  rw [hrow.exec, slotPattern, lookupPattern_eq _ (by simpa using hr), Run.result_done]
  exact congrArg _ (afterLookup_pattern (s := setKs .lookup { s with ksPat := (keymapRom s.cfg k).pattern }) hwf
    hrow.slot)

/-- Settles O22: each row hands over the table word of its digit. -/
theorem morseRows : Obligations.MorseRows := by
  intro s i w h
  simp only [List.mem_cons, Prod.mk.injEq, List.not_mem_nil, or_false] at h
  rcases h with h | h | h | h | h | h | h | h | h | h | h <;> obtain ⟨rfl, rfl⟩ := h <;> rfl

end Sys2Proof.Machine
end

section
/-! The cursor and display commands and the frame forms, when their ready-waits are answered
(43_display_channel_driver.md R166, R174; 30_encoding.md R91, R92). -/

namespace Sys2Proof.Machine

open Sys2Proof.Config

/-! ### What a display does with each command (10_state.md R44) -/

theorem View.command_cmdClear (p : Params) (v : View) : v.command p p.cmdClear = v.cleared := by
  simp [View.command, View.cleared]

theorem View.command_home {p : Params} (hwf : p.wf = true) (v : View) :
    v.command p p.cmdHome = { v with vcur := 0 } := by
  obtain ⟨hclear, -⟩ := commands_distinct hwf
  simp [View.command, hclear]

theorem View.command_displayOff {p : Params} (hwf : p.wf = true) (v : View) :
    v.command p p.cmdDisplayOff = { v with on := false } := by
  obtain ⟨-, hclear, hhome, -⟩ := commands_distinct hwf
  simp [View.command, hclear, hhome]

theorem View.command_setCursor {p : Params} (hwf : p.wf = true) (o : BitVec 2) (v : View) :
    v.command p (cursorCommand p o) = { v with vcur := o.toNat } := by
  obtain ⟨-, -, -, hcursor⟩ := commands_distinct hwf
  obtain ⟨hclear, hhome, hoff⟩ := hcursor o
  simp [View.command, hclear, hhome, hoff, cursorOffset_eq_some.2 rfl]

/-! ### The operations -/

section
variable {c : Chan} {s : State}

/-- DCD.MOVECURSOR and DC.SETCURSOR in a build the spec admits (43_display_channel_driver.md R174). -/
theorem moveCursor_completes (hwf : s.cfg.wf = true) (hr : s.rstIn = none) (hi : (s.drv c).inited = true)
    (ha : s.answers c 4 = true) (o : BitVec 2) :
    ifInitialised c s (moveCursor c o s) = .next (afterTransfer c false (cursorCommand s.cfg o)
      (fun _ => o.setWidth 3) (fun v => { v with vcur := o.toNat }) s) := by
  rw [ifInitialised_ready hi, moveCursor_answered c o s ha hr, Run.result_done,
    funext (View.command_setCursor hwf o)]

theorem displayOff_completes (hwf : s.cfg.wf = true) (hr : s.rstIn = none) (hi : (s.drv c).inited = true)
    (ha : s.answers c 4 = true) :
    ifInitialised c s (displayOff c s) = .next (afterTransfer c false s.cfg.cmdDisplayOff id
      (fun v => { v with on := false }) s) := by
  rw [ifInitialised_ready hi, displayOff, writeCommand_answered c _ s ha hr, Run.result_done,
    funext (View.command_displayOff hwf)]

/-- DC.CLEAR and DC.HOME: a command whose cursor is 0 afterwards (30_encoding.md R92; assumption 21). -/
theorem commandToOrigin_completes (hr : s.rstIn = none) (hi : (s.drv c).inited = true) (ha : s.answers c 4 = true)
    (b : Byte) :
    ifInitialised c s ((transfer c false b s).andThen fun t => finish c (setCursor c 0 t)) =
      .next (afterTransfer c false b (fun _ => 0) (fun v => v.command s.cfg b) s) := by
  rw [ifInitialised_ready hi]
  exact congrArg Run.result (transfer_then_cursor c false b (fun _ => 0) s ha hr)

theorem writeChar_completes (hr : s.rstIn = none) (hi : (s.drv c).inited = true) (ha : s.answers c 4 = true)
    (b : Byte) :
    ifInitialised c s (writeChar c b s) =
      .next (afterTransfer c true b (· + 1) (fun v => v.character b) s) := by
  rw [ifInitialised_ready hi, writeChar_answered c b s ha hr, Run.result_done]

theorem sendFrame_completes (hr : s.rstIn = none) (hi : (s.drv c).inited = true) (ha : s.answers c 1 = true)
    (n : Nibble) (en rs : Bool) :
    ifInitialised c s (sendFrame c n en rs id s) =
      .next (sleptLast s.cfg.tStep (channelAfter c 1 (frameEvents s.cfg c n en rs) s.cfg.tStep
        (fun d => { d with step := d.step + 1, busReq := .none, busByte := frame s.cfg n en rs }) id s)) := by
  rw [ifInitialised_ready hi, sendFrame_answered c n en rs id s ha hr, Run.result_done]

end

/-- Settles O28: on either channel the operation is the cursor command's transfer. -/
theorem moveCursorCompletes : Obligations.MoveCursorCompletes := by
  intro s o c i hi hwf hr hinit ha
  simp only [List.mem_cons, Prod.mk.injEq, List.not_mem_nil, or_false] at hi
  rcases hi with ⟨rfl, rfl⟩ | ⟨rfl, rfl⟩ <;> exact moveCursor_completes hwf hr hinit ha o

/-- Settles O31: each row is the transfer of its byte, with what the display does with that byte. -/
theorem displayCommandRows : Obligations.DisplayCommandRows := by
  intro s c hwf hr hinit ha
  refine ⟨?_, ?_, moveCursor_completes hwf hr hinit ha, displayOff_completes hwf hr hinit ha,
    writeChar_completes hr hinit ha⟩
  · rw [← funext (View.command_cmdClear s.cfg)]
    exact commandToOrigin_completes hr hinit ha s.cfg.cmdClear
  · rw [← funext (View.command_home hwf)]
    exact commandToOrigin_completes hr hinit ha s.cfg.cmdHome

/-- Settles O32: either form is one frame with its register select. -/
theorem frameRows : Obligations.FrameRows := by
  intro s c n en rs i hi hr hinit ha
  simp only [List.mem_cons, Prod.mk.injEq, List.not_mem_nil, or_false] at hi
  rcases hi with ⟨rfl, rfl⟩ | ⟨rfl, rfl⟩ <;> exact sendFrame_completes hr hinit ha n en _

end Sys2Proof.Machine
end

section
/-! The scan of the keypad (40_keypad_scanner.md R121 to R134). `State.nthSample` names what the strobes of a scan see,
whether listed or shown by the held keys; a scan is then its idle strobes, in closed form, and what the next sample makes
of it. -/

namespace Sys2Proof.Machine

open Sys2Proof.Config

/-! ### The samples of a scan -/

/-- The sample of a scan from `s` on after `k` others: a listed one, or what the held keys show at the row it has reached
(40_keypad_scanner.md R125, R126; assumption 7). -/
def State.nthSample (s : State) (k : Nat) : Nibble :=
  s.cols.getD k (columns s.cfg s.keys (strobe s.cfg (s.ksRow + BitVec.ofNat 2 k)))

/-- The first `n` samples of a scan from `s` on are idle. -/
def State.IdleFor (s : State) (n : Nat) : Prop := ∀ k < n, s.nthSample k = s.cfg.colIdle

theorem nthSample_held {s : State} {k : Nat} (h : s.cols.length ≤ k) :
    s.nthSample k = columns s.cfg s.keys (strobe s.cfg (s.ksRow + BitVec.ofNat 2 k)) :=
  List.getD_eq_default _ _ h

theorem nthSample_listed_idle {s : State} {n k : Nat} (hcols : s.cols = List.replicate n s.cfg.colIdle) (hk : k < n) :
    s.nthSample k = s.cfg.colIdle := by
  simp [State.nthSample, hcols, hk]

/-- Without a key every sample is idle, the listed ones being so (10_state.md R41). -/
theorem idleFor_of_no_key {s : State} {n : Nat} (hcols : s.cols = List.replicate n s.cfg.colIdle)
    (hkeys : ¬ someKeySeen s.cfg s.keys) (m : Nat) : s.IdleFor m := by
  intro k _
  rcases Nat.lt_or_ge k n with hk | hk
  · exact nthSample_listed_idle hcols hk
  · rw [nthSample_held (by simpa [hcols] using hk)]
    exact not_not.1 fun h => hkeys ⟨_, h⟩

/-! ### Idle strobes -/

theorem idleScanEvents_append (p : Params) (m n : Nat) (r : BitVec 2) :
    idleScanEvents p (m + n) r = idleScanEvents p m r ++ idleScanEvents p n (r + BitVec.ofNat 2 m) := by
  induction m generalizing r with
  | zero => simp [idleScanEvents]
  | succ m ih =>
    have hrow : r + 1 + BitVec.ofNat 2 m = r + BitVec.ofNat 2 (m + 1) := by
      rw [BitVec.ofNat_add, add_assoc, add_comm (BitVec.ofNat 2 m)]
      rfl
    rw [Nat.succ_add, idleScanEvents, ih, idleScanEvents, List.append_assoc, hrow]

theorem idleScanEvents_succ (p : Params) (n : Nat) (r : BitVec 2) :
    idleScanEvents p (n + 1) r = idleScanEvents p n r ++
      [.row (strobe p (r + BitVec.ofNat 2 n)), .delay p.tRowSettle, .sample p.colIdle] :=
  idleScanEvents_append p n 1 r

/-- `s` with `n` idle strobes of a scan behind it, as far as the next strobe can tell: what that strobe writes anew is
left as it was. -/
def State.passed (s : State) (n : Nat) : State :=
  { s with ksRow := s.ksRow + BitVec.ofNat 2 n, cols := s.cols.drop n,
           events := s.events ++ idleScanEvents s.cfg n s.ksRow, time := s.time + n * s.cfg.tRowSettle }

@[simp] theorem passed_zero (s : State) : s.passed 0 = s := by simp [State.passed, idleScanEvents]
@[simp] theorem passed_rstIn (s : State) (n : Nat) : (s.passed n).rstIn = s.rstIn := rfl
@[simp] theorem passed_cfg (s : State) (n : Nat) : (s.passed n).cfg = s.cfg := rfl

theorem strobedColumns_passed (s : State) (n : Nat) : strobedColumns (s.passed n) = s.nthSample n := by
  simp [strobedColumns, State.passed, State.nthSample, List.headD_eq_head?_getD, List.getD_eq_getElem?_getD]

/-- `s` with `n + 1` idle strobes behind it, about to strobe the next row (40_keypad_scanner.md R126). -/
def State.idled (s : State) (n : Nat) : State :=
  { s.passed (n + 1) with
    ksPhase := .drive, kpRow := strobe s.cfg (s.ksRow + BitVec.ofNat 2 n), dlyReq := false,
    dlyLen := s.cfg.tRowSettle }

theorem nextRow_strobed_passed {s : State} {n : Nat} (h : s.nthSample n = s.cfg.colIdle) :
    nextRow (strobed (s.passed n)) = s.idled n := by
  have hsample : strobedColumns (s.passed n) = s.cfg.colIdle := (strobedColumns_passed s n).trans h
  simp only [nextRow, setKs, strobed, hsample]
  simp [State.idled, State.passed, idleScanEvents_succ, Nat.add_mul, BitVec.ofNat_add, add_assoc]

/-- A turn of the scan does not depend on what its strobe writes anew. -/
theorem scanRow_idled (more : State → Run) {s : State} (hr : s.rstIn = none) (n : Nat) :
    scanRow more (s.idled n) = scanRow more (s.passed (n + 1)) := by
  rw [scanRow_eq _ _ (by exact hr), scanRow_eq _ _ (by exact hr)]
  rfl

/-- The turn after `n` idle samples, one more idle one. -/
theorem scanRow_passed_idle (more : State → Run) {s : State} {n : Nat} (hr : s.rstIn = none)
    (hn : s.nthSample n = s.cfg.colIdle) : scanRow more (s.passed n) = more (s.idled n) := by
  rw [scanRow_eq _ _ (by simpa using hr), strobedColumns_passed, passed_cfg, if_neg (not_not.2 hn),
    nextRow_strobed_passed hn]

/-- A scan passes over its idle samples (40_keypad_scanner.md R126). -/
theorem scanRows_idle {s : State} {n : Nat} (m : Nat) (hr : s.rstIn = none) (hidle : s.IdleFor n) :
    scanRows (n + (m + 1)) s = scanRow (scanRows m) (s.passed n) := by
  induction n generalizing m with
  | zero => rw [Nat.zero_add, passed_zero, scanRows]
  | succ n ih =>
    have hbefore : s.IdleFor n := fun k hk => hidle k (Nat.lt_succ_of_lt hk)
    rw [Nat.succ_add_eq_add_succ, ih (m + 1) hbefore, scanRow_passed_idle _ hr (hidle n (Nat.lt_succ_self n)), scanRows,
      scanRow_idled _ hr]

/-- A scan whose samples are all idle waits at the next row (40_keypad_scanner.md R130). -/
theorem scanRows_waits {s : State} {n : Nat} (hr : s.rstIn = none) (hidle : s.IdleFor (n + 1)) :
    scanRows (n + 1) s = .stop (s.idled n) := by
  have hbefore : s.IdleFor n := fun k hk => hidle k (Nat.lt_succ_of_lt hk)
  rw [scanRows_idle 0 hr hbefore, scanRow_passed_idle _ hr (hidle n (Nat.lt_succ_self n)), scanRows]

/-! ### A call that captures -/

/-- The scanner at the first statement of KS.READDIGIT (40_keypad_scanner.md R121, R123). -/
def scanStart (s : State) : State := setKs .drive { s with ksRow := 0 }

@[simp] theorem scanStart_cols (s : State) : (scanStart s).cols = s.cols := rfl
@[simp] theorem scanStart_keys (s : State) : (scanStart s).keys = s.keys := rfl
@[simp] theorem scanStart_cfg (s : State) : (scanStart s).cfg = s.cfg := rfl
@[simp] theorem scanStart_rstIn (s : State) : (scanStart s).rstIn = s.rstIn := rfl
@[simp] theorem scanStart_ksRow (s : State) : (scanStart s).ksRow = 0 := rfl

theorem exec_ksReaddigit (s : State) : exec .ksReaddigit s = (scanRows (scanTurns s) (scanStart s)).result := rfl

/-- The capture of the sample after `n` idle strobes of a call (40_keypad_scanner.md R125, R127, R128, R133). -/
theorem capturePattern_passed {s : State} {n : Nat} {c : Nibble} (hr : s.rstIn = none)
    (hc : (scanStart s).nthSample n = c) :
    capturePattern c (strobed ((scanStart s).passed n)) = .done (afterScan n c (s.cols.drop (n + 1)) s) := by
  have hsample : strobedColumns ((scanStart s).passed n) = c := (strobedColumns_passed _ n).trans hc
  rw [capturePattern_eq _ _ (by exact hr)]
  simp only [strobed, hsample]
  simp [State.passed, scanStart, setKs, afterLookup, afterScan, capturedPattern, scanEvents, Nat.add_mul, Nat.add_assoc]

/-- A call whose first sample that is not idle comes within its turns captures it (40_keypad_scanner.md R134). -/
theorem readDigit_captures {s : State} {n : Nat} {c : Nibble} (hr : s.rstIn = none) (hn : n < scanTurns s)
    (hidle : (scanStart s).IdleFor n) (hc : (scanStart s).nthSample n = c) (hne : c ≠ s.cfg.colIdle) :
    exec .ksReaddigit s = .next (afterScan n c (s.cols.drop (n + 1)) s) := by
  obtain ⟨m, hm⟩ := Nat.exists_eq_add_of_lt hn
  rw [exec_ksReaddigit, hm, Nat.add_assoc, scanRows_idle m (by simpa using hr) hidle, scanRow_eq _ _ (by simpa using hr),
    strobedColumns_passed, hc, if_pos (by simpa using hne), capturePattern_passed hr hc, Run.result_done]

/-- Settles O12: the listed samples before the captured one are idle. -/
theorem readDigitCaptures : Obligations.ReadDigitCaptures := by
  rintro s n c rest hr ⟨hcols, hne⟩
  have hturn : n < scanTurns s := by
    rw [scanTurns, hcols, List.length_append, List.length_replicate]
    omega
  have hidle : (scanStart s).IdleFor n := fun k hk => by simp [State.nthSample, hcols, List.getElem?_append, hk]
  have hc : (scanStart s).nthSample n = c := by simp [State.nthSample, hcols]
  have hrest : s.cols.drop (n + 1) = rest := by simp [hcols, List.drop_append]
  rw [readDigit_captures hr hturn hidle hc hne, hrest]

/-- Settles O13: the listed samples are idle, and so are the rows strobed after them before the one that shows the
key. -/
theorem heldKeyIsCaptured : Obligations.HeldKeyIsCaptured := by
  rintro s n c hr ⟨j, hj, rfl, hcols, hrows, hc, hne⟩
  have hheld : ∀ i, (scanStart s).nthSample (s.cols.length + i) =
      columns s.cfg s.keys (strobe s.cfg (BitVec.ofNat 2 (s.cols.length + i))) := fun i =>
    (nthSample_held (s := scanStart s) (Nat.le_add_right _ i)).trans (by simp)
  have hidle : (scanStart s).IdleFor (s.cols.length + j) := by
    intro k hk
    rcases Nat.lt_or_ge k s.cols.length with hlisted | hafter
    · exact nthSample_listed_idle hcols hlisted
    · obtain ⟨i, rfl⟩ := Nat.exists_eq_add_of_le hafter
      exact (hheld i).trans (hrows i (Nat.lt_of_add_lt_add_left hk))
  have hrest : s.cols.drop (s.cols.length + j + 1) = [] := List.drop_eq_nil_of_le (by omega)
  rw [readDigit_captures hr (Nat.add_lt_add_left hj _) hidle ((hheld j).trans hc) hne, hrest]

/-! ### A scan without a key -/

/-- Four strobes lead back to the same row (40_keypad_scanner.md R126). -/
theorem row_add_four (n : Nat) : BitVec.ofNat 2 (n + 4) = BitVec.ofNat 2 n := by
  rw [BitVec.ofNat_add]
  exact add_zero _

/-- Settles O14: the listed samples and one pass of the held keys are idle. -/
theorem readDigitWaits : Obligations.ReadDigitWaits := by
  intro s n hr hcols hkeys
  have hturns : scanTurns s = n + 3 + 1 := by simp [scanTurns, hcols]
  have hidle : (scanStart s).IdleFor (n + 3 + 1) := idleFor_of_no_key (s := scanStart s) hcols hkeys _
  have hdrop : s.cols.drop (n + 3 + 1) = [] := List.drop_eq_nil_of_le (by rw [hcols, List.length_replicate]; omega)
  rw [exec_ksReaddigit, hturns, scanRows_waits (by simpa using hr) hidle, Run.result_stop]
  simp [State.idled, State.passed, scanStart, setKs, hdrop, row_add_four]

/-- What makes a block scan and nothing else: it is in a scan that has no listed sample left and sees no key. -/
structure ScansForKey (s : State) : Prop where
  wf : s.cfg.wf = true
  rst : s.rst = false
  rstIn : s.rstIn = none
  halted : s.halted = false
  stalled : s.stalled = false
  scanning : s.scanning = true
  cols : s.cols = []
  keys : ¬ someKeySeen s.cfg s.keys

/-- The state of a waiting scan after `n` steps that see no key (40_keypad_scanner.md R130). -/
def State.scannedOn (s : State) (n : Nat) : State :=
  { s with ksPhase := .drive, kpRow := strobe s.cfg (s.ksRow + 3), dlyReq := false, dlyLen := s.cfg.tRowSettle,
           events := s.events ++ idleScanEvents s.cfg (4 * n) s.ksRow, time := s.time + 4 * n * s.cfg.tRowSettle }

theorem ScansForKey.step {s : State} (h : ScansForKey s) : step s = .next (s.scannedOn 1) := by
  have hidle : s.IdleFor (3 + 1) := idleFor_of_no_key (n := 0) h.cols h.keys _
  have hturns : scanTurns s = 3 + 1 := by rw [scanTurns, h.cols]; rfl
  have hresume : resumeScan s = .stop (s.scannedOn 1) := by
    have hcols : s.cols.drop 4 = s.cols := by rw [h.cols]; rfl
    rw [resumeScan, hturns, scanRows_waits h.rstIn hidle]
    simp [State.idled, State.passed, State.scannedOn, hcols]
  simp [Machine.step, scanOn, h.wf, h.rst, h.halted, h.stalled, h.scanning, hresume]

/-- A scan that sees no key sees none after the step either. -/
theorem ScansForKey.scannedOn {s : State} (h : ScansForKey s) (n : Nat) : ScansForKey (s.scannedOn n) :=
  { wf := h.wf, rst := h.rst, rstIn := h.rstIn, halted := h.halted, stalled := h.stalled, scanning := rfl, cols := h.cols,
    keys := h.keys }

theorem scannedOn_scannedOn (s : State) (n : Nat) : (s.scannedOn 1).scannedOn n = s.scannedOn (n + 1) := by
  have hrow : s.ksRow + BitVec.ofNat 2 4 = s.ksRow := add_zero _
  simp only [State.scannedOn, Nat.mul_add, Nat.add_comm (4 * n), idleScanEvents_append, hrow, List.append_assoc,
    Nat.add_mul, Nat.add_assoc]

theorem run_succ_of_step {s t : State} (h : step s = .next t) (n : Nat) : core.run (n + 1) s = core.run n t := by
  simp only [Host.Core.run, show core.step s = .next t from h]

/-- Any number of steps is four strobes each (40_keypad_scanner.md R130; assumption 10). -/
theorem ScansForKey.run {s : State} (h : ScansForKey s) (n : Nat) :
    core.run (n + 1) s = .next (s.scannedOn (n + 1)) := by
  induction n generalizing s with
  | zero => exact run_succ_of_step h.step 0
  | succ n ih => rw [run_succ_of_step h.step, ih (h.scannedOn 1), scannedOn_scannedOn]

/-- Settles O15: each step is a pass of the four rows that ends at the row it began at. -/
theorem scanGoesOnForever : Obligations.ScanGoesOnForever :=
  fun _ n hwf hrst hrstIn hhalted hstalled hscanning hcols hkeys =>
    ScansForKey.run ⟨hwf, hrst, hrstIn, hhalted, hstalled, hscanning, hcols, hkeys⟩ n

/-! ### The result of a call -/

/-- The caller has been handed a digit. -/
def State.HasDigit (s : State) : Prop := ∃ d, s.ret = .digit d

theorem noDigit_hasDigit {s t : State} (h : noDigit s = .done t) : t.HasDigit := by
  obtain ⟨u, -, hu⟩ := Run.andThen_done h
  cases hu
  exact ⟨_, rfl⟩

/-- The table search hands over a digit whatever it finds (40_keypad_scanner.md R127, R128). -/
theorem lookupPattern_hasDigit {s t : State} (h : lookupPattern s = .done t) : t.HasDigit := by
  unfold lookupPattern at h
  split at h
  · dsimp only at h
    split at h
    · cases h
      exact ⟨_, rfl⟩
    · exact noDigit_hasDigit h
  · exact noDigit_hasDigit h

/-- A scan returns by a capture only, and so with a digit. -/
theorem scanRows_hasDigit {n : Nat} {s t : State} (h : scanRows n s = .done t) : t.HasDigit := by
  induction n generalizing s with
  | zero => cases h
  | succ n ih =>
    obtain ⟨u, -, hsampled⟩ := Run.andThen_done h
    obtain ⟨v, -, hv⟩ := Run.andThen_done hsampled
    split at hv
    · obtain ⟨w, -, hw⟩ := Run.andThen_done hv
      exact lookupPattern_hasDigit hw
    · exact ih hv

/-- Settles O16: a scan that stopped still waits or was reset; one that returned has handed over a digit of the table. -/
theorem readDigitInRange : Obligations.ReadDigitInRange := by
  intro s t hwf h hscanning hrst
  have hscan := readDigit_scans s
  rw [exec, execKsReaddigit] at h
  cases hrun : readDigit s with
  | done u =>
    rw [hrun] at h hscan
    cases h
    obtain ⟨d, hd⟩ := scanRows_hasDigit hrun
    have hrange : t.ret.inRange = true := hscan.ret hwf
    rw [hd] at hrange
    exact ⟨d, hd, of_decide_eq_true hrange⟩
  | stop u =>
    rw [hrun] at h hscan
    cases h
    rcases hscan with hreset | ⟨-, hphase⟩
    · rw [hreset.rst] at hrst
      cases hrst
    · exact absurd ((not_scanning_iff t).1 hscanning) hphase

end Sys2Proof.Machine
end

section
/-! The cipher engine (41_cipher_engine.md R141 to R147): the sum of a digit and a shift never wraps, so CE.ENCRYPT is
the spec's formula for every operand value, and at a fixed position a rotation of the digits. -/

namespace Sys2Proof.Machine

open Sys2Proof.Config

/-! ### The keystream -/

/-- A letter 'A' to 'Z' is stored as its shift (41_cipher_engine.md R143). -/
theorem toNat_letterShift {letter : Byte} (hA : 0x41 ≤ letter.toNat) (hZ : letter.toNat ≤ 0x5A) :
    (letterShift letter).toNat = letter.toNat - 0x41 := by
  rw [letterShift]
  bv_omega

/-- Every place of an admitted key holds a letter 'A' to 'Z'; past its end it reads as 'A' (00_scope.md R11). -/
theorem keyLetter_range {p : Params} (hwf : p.wf = true) (i : Nat) :
    0x41 ≤ (p.key.getD i 0x41).toNat ∧ (p.key.getD i 0x41).toNat ≤ 0x5A := by
  obtain ⟨hkey, -⟩ := checks_of_wf hwf
  obtain ⟨-, hletters⟩ : p.key ≠ [] ∧ ∀ c ∈ p.key, 0x41 ≤ c.toNat ∧ c.toNat ≤ 0x5A := by
    simpa [Params.keyOk] using hkey
  rcases lt_or_ge i p.key.length with hi | hi
  · rw [List.getD_eq_getElem _ _ hi]
    exact hletters _ (List.getElem_mem hi)
  · rw [List.getD_eq_default _ _ hi]
    decide

theorem toNat_keyRom {p : Params} (hwf : p.wf = true) (i : Nat) :
    (keyRom p i).toNat = (p.key.getD i 0x41).toNat - 0x41 := by
  obtain ⟨hA, hZ⟩ := keyLetter_range hwf i
  exact toNat_letterShift hA hZ

theorem keystreamIndex_add_keyLen (p : Params) (q : Position) :
    keystreamIndex p (q + keyLen p) = keystreamIndex p q :=
  Nat.add_mod_right q (keyLen p)

/-! ### The formula -/

/-- In any build: a nibble and a 5-bit shift fit the 6 bits of the sum (41_cipher_engine.md R147). -/
theorem toNat_encryptDigit (p : Params) (d : Nibble) (q : Position) :
    (encryptDigit p d q).toNat = (d.toNat + (keyRom p (keystreamIndex p q)).toNat) % 10 := by
  have hd := d.isLt
  have hshift := (keyRom p (keystreamIndex p q)).isLt
  simp only [encryptDigit, BitVec.toNat_setWidth, BitVec.toNat_umod, BitVec.toNat_add, BitVec.toNat_ofNat,
    Nat.reducePow, Nat.reduceMod]
  omega

theorem encryptDigit_eq_ofNat (p : Params) (d : Nibble) (q : Position) :
    encryptDigit p d q = BitVec.ofNat 4 ((d.toNat + (keyRom p (keystreamIndex p q)).toNat) % 10) := by
  rw [← toNat_encryptDigit, BitVec.ofNat_toNat, BitVec.setWidth_eq]

theorem exec_ceEncrypt (d : Nibble) (q : Position) (s : State) :
    exec (.ceEncrypt d q) s = .next { s with ret := .digit (encryptDigit s.cfg d q) } := rfl

/-- Settles O18: the sum does not wrap, and the table holds the letter's shift. -/
theorem encryptResult : Obligations.EncryptResult := by
  intro s d q hwf
  rw [exec_ceEncrypt, encryptDigit_eq_ofNat, toNat_keyRom hwf, keystreamIndex, keyLen]

/-- Settles O19: a position and the one `KEYLEN` further select the same key letter. -/
theorem encryptIsPeriodic : Obligations.EncryptIsPeriodic := by
  intro s d q
  rw [exec_ceEncrypt, exec_ceEncrypt, encryptDigit, encryptDigit, keystreamIndex_add_keyLen]

/-! ### The rotation -/

/-- Each digit is the sum modulo 10 of a fixed shift and exactly one digit (41_cipher_engine.md R146). -/
theorem rotation_existsUnique (shift : Nat) {e : Nat} (he : e ≤ 9) :
    ∃! d, d ≤ 9 ∧ (d + shift) % 10 = e :=
  ⟨(e + (10 - shift % 10)) % 10, ⟨by omega, by omega⟩, fun d ⟨hd, hsum⟩ => by omega⟩

/-- Settles O20: at a fixed position the cipher rotates the digits by the shift of the position's key letter. -/
theorem encryptIsBijective : Obligations.EncryptIsBijective := by
  intro p q _
  refine ⟨fun d => encryptDigit_le p d q, fun e he => ?_⟩
  obtain ⟨d, ⟨hd, hsum⟩, hunique⟩ := rotation_existsUnique (keyRom p (keystreamIndex p q)).toNat he
  have hdigit : (BitVec.ofNat 4 d).toNat = d := Nat.mod_eq_of_lt (by omega)
  refine ⟨BitVec.ofNat 4 d, ⟨hdigit.trans_le hd, ?_⟩, fun d' ⟨hd', he'⟩ => ?_⟩
  · rw [← BitVec.toNat_inj, toNat_encryptDigit, hdigit, hsum]
  · rw [← BitVec.toNat_inj, hdigit]
    exact hunique _ ⟨hd', by rw [← toNat_encryptDigit, he']⟩

end Sys2Proof.Machine
end

section
/-! The Morse encoder (42_morse_encoder.md R151, R152): the table word of each operand packs the marks of the spec's
pattern, and the bits above them are zero. -/

namespace Sys2Proof.Machine

open Sys2Proof.Config

/-- The 16 table words against the pattern, the undefined operands included (42_morse_encoder.md R151). -/
theorem marksOf_morseRom (d : Nibble) : marksOf (morseRom d) = morseMarks d.toNat := by
  revert d
  decide

/-- The undefined operands 10 to 15 have the empty word (42_morse_encoder.md R152). -/
theorem morseRom_undefined {d : Nibble} (h : 9 < d.toNat) : morseRom d = 0 := by
  revert d
  decide

/-- A digit's five marks leave no bit above them; the word of an undefined operand has no bit set at all
(30_encoding.md R97, 42_morse_encoder.md R152). -/
theorem markAt_morseRom_of_markCount_le {d : Nibble} {i : Nat} (habove : markCount (morseRom d) ≤ i) (hi : i < 5) :
    markAt (morseRom d) i = false := by
  rcases le_or_gt d.toNat 9 with hdigit | hundefined
  · rw [markCount_morseRom hdigit] at habove
    exact absurd hi (Nat.not_lt.2 habove)
  · rw [morseRom_undefined hundefined]
    exact BitVec.getLsbD_zero

theorem exec_meEncode (d : Nibble) (s : State) :
    exec (.meEncode d) s = .next { s with ret := .word (morseRom d) } := rfl

/-- Settles O21: the word is the operand's table word. -/
theorem encodeResult : Obligations.EncodeResult := fun s d =>
  ⟨morseRom d, exec_meEncode d s, marksOf_morseRom d, fun _ => markAt_morseRom_of_markCount_le⟩

end Sys2Proof.Machine
end

section
/-! The display operations on either channel when their ready-waits are answered (43_display_channel_driver.md R164 to
R179), and when a channel does not allow them (R163, R170). -/

namespace Sys2Proof.Machine

open Sys2Proof.Config

/-- An operation that each channel has under a name of its own is one meaning, performed on the channel
(43_display_channel_driver.md R161). -/
theorem exec_onChannel {c : Chan} {i i₁ i₂ : Instr} {s : State} {meaning : Chan → Host.Outcome State Fault Refusal}
    (hi : (c, i) ∈ [(Chan.ch1, i₁), (.ch2, i₂)]) (h₁ : exec i₁ s = meaning .ch1) (h₂ : exec i₂ s = meaning .ch2) :
    exec i s = meaning c := by
  simp only [List.mem_cons, Prod.mk.injEq, List.not_mem_nil, or_false] at hi
  rcases hi with ⟨rfl, rfl⟩ | ⟨rfl, rfl⟩
  · exact h₁
  · exact h₂

/-! ### Bytes, nibbles, commands and characters -/

/-- Settles O23: one request and its answered wait. -/
theorem sendByteCompletes : Obligations.SendByteCompletes := by
  intro s b c i hi hr hinit ha
  rw [exec_onChannel (meaning := fun c => ifInitialised c s (sendByte c b id s)) hi rfl rfl, ifInitialised_ready hinit,
    sendByte_answered c b id s ha hr, Run.result_done]

/-- Settles O24: two frames, each with its answered wait. -/
theorem sendNibbleCompletes : Obligations.SendNibbleCompletes := by
  intro s n rs c i hi hr hinit ha
  rw [exec_onChannel (meaning := fun c => ifInitialised c s (sendNibble c n rs id s)) hi rfl rfl,
    ifInitialised_ready hinit, sendNibble_answered c n rs id s ha hr, Run.result_done]

/-- Settles O25: the transfer of the byte as a command. -/
theorem writeCommandCompletes : Obligations.WriteCommandCompletes := by
  intro s b c i hi hr hinit ha
  rw [exec_onChannel (meaning := fun c => ifInitialised c s (writeCommand c b s)) hi rfl rfl,
    ifInitialised_ready hinit, writeCommand_answered c b s ha hr, Run.result_done]

/-- Settles O26: the transfer of the byte as a character, which the display puts at its cursor. -/
theorem writeCharCompletes : Obligations.WriteCharCompletes := by
  intro s b c i hi hr hinit ha
  rw [exec_onChannel (meaning := fun c => ifInitialised c s (writeChar c b s)) hi rfl rfl,
    writeChar_completes hr hinit ha b]
  rfl

/-- Settles O27: clear, home and the settle delay. -/
theorem clearCompletes : Obligations.ClearCompletes := by
  intro s c i hi hr hinit ha
  rw [exec_onChannel (meaning := fun c => ifInitialised c s (clearDisplay c s)) hi rfl rfl,
    ifInitialised_ready hinit, clearDisplay_answered c s ha hr, Run.result_done]

/-- Settles O29: the transfer of display-off, which a display of an admitted build takes as that command. -/
theorem displayOffCompletes : Obligations.DisplayOffCompletes := by
  intro s c i hi hwf hr hinit ha
  rw [exec_onChannel (meaning := fun c => ifInitialised c s (displayOff c s)) hi rfl rfl,
    displayOff_completes hwf hr hinit ha]

/-! ### DCD.INITIALIZE -/

/-- The sequence has 12 pairs (20_memory.md R56). -/
theorem initSeq_length {p : Params} (hwf : p.wf = true) : p.initSeq.length = 12 := by
  obtain ⟨-, -, -, -, -, -, -, hok, -⟩ := checks_of_wf hwf
  simpa [Params.initSeqOk] using hok

/-- `d_seq` ends at the index of the last pair (43_display_channel_driver.md R162; assumption 16). -/
theorem pairsSent_seq (p : Byte × Byte) (ps : List (Byte × Byte)) (j : Nat) (d : Driver) :
    (pairsSent (p :: ps) j d).seq = BitVec.ofNat 4 (j + ps.length) := by
  induction ps generalizing p j d with
  | nil => rfl
  | cons q qs ih =>
    rw [pairsSent, ih, List.length_cons]
    congr 1
    omega

/-- That the bus has been started makes no difference to an operation on the channel. -/
theorem channelAfter_started (c : Chan) (n : Nat) (evs ticks d v) (s : State) :
    channelAfter c n evs ticks d v (s.modLine c fun l => { l with started := true }) =
      (channelAfter c n evs ticks d v s).modLine c fun l => { l with started := true } := by
  cases c <;> rfl

theorem markInitialised_eq (c : Chan) (s : State) :
    markInitialised c s =
      channelAfter c 0 [] 0 (fun d => { d with inited := true }) (fun v => { v with on := true }) s := by
  cases c <;> simp [markInitialised, channelAfter, State.modDrv, State.modLine, Ready.after, Ready.waited]

/-- Start, address and the sequence of an admitted build when the flag answers all 26 waits
(43_display_channel_driver.md R170, R171). -/
theorem beforeClear_completes {c : Chan} {s : State} (hwf : s.cfg.wf = true) (hr : s.rstIn = none)
    (h : s.answers c 26 = true) :
    beforeClear c s = .done (sleptLast s.cfg.tStep ((channelAfter c 26
      ([.busStart c, .busReady c, .busAddr c (busAddr s.cfg c), .busReady c] ++
        s.cfg.initSeq.flatMap (pairEvents s.cfg c)) (24 * s.cfg.tStep)
      (fun d => pairsSent s.cfg.initSeq 0 { d with phase := .seq, busReq := .none, busByte := busAddr s.cfg c }) id
      s).modLine c fun l => { l with started := true })) := by
  obtain ⟨p, ps, hseq⟩ := List.exists_cons_of_length_eq_add_one (initSeq_length hwf)
  have hwaits : 2 * (ps.length + 1) = 24 := by
    have hlength := initSeq_length hwf
    rw [hseq, List.length_cons] at hlength
    omega
  have h1 : (channelAfter c 1 [.busStart c, .busReady c] 0 (fun d => { d with phase := .start, busReq := .none }) id
      s).answers c 25 = true := answers_channelAfter c 1 25 _ _ _ _ s h
  rw [← answers_started] at h1
  have h2 := answers_channelAfter c 1 24 [.busAddr c (busAddr s.cfg c), .busReady c] 0
    (fun d => { d with phase := .addr, busReq := .none, busByte := busAddr s.cfg c }) id _ h1
  rw [← answers_modDrv c c _ fun d => { d with phase := .seq }, ← hwaits] at h2
  unfold beforeClear
  rw [startBus_answered c s (answers_le c 1 25 s h) hr, Run.done_andThen,
    addressBus_answered c _ (answers_le c 1 24 _ h1) (by simpa using hr), Run.done_andThen]
  simp only [modLine_cfg, channelAfter_cfg, hseq]
  unfold setPhase
  rw [sendPairs_answered c p ps 0 _ h2 (by simpa using hr), hwaits]
  simp only [modDrv_eq, modLine_cfg, channelAfter_cfg, channelAfter_started, channelAfter_channelAfter,
    List.append_nil, List.cons_append, List.nil_append, Nat.zero_add, Nat.reduceAdd]
  rfl

/-- DCD.INITIALIZE in an admitted build when the flag answers all 34 waits (43_display_channel_driver.md R170). -/
theorem initDisplay_completes {c : Chan} {s : State} (hwf : s.cfg.wf = true) (hr : s.rstIn = none)
    (h : s.answers c 34 = true) : initDisplay c s = .done (afterInitialise c s) := by
  obtain ⟨p, ps, hseq⟩ := List.exists_cons_of_length_eq_add_one (initSeq_length hwf)
  have hlast : ps.length = 11 := by
    have hlength := initSeq_length hwf
    rwa [hseq, List.length_cons, Nat.succ_inj] at hlength
  rw [initDisplay_eq, beforeClear_completes hwf hr (answers_le c 26 8 s h), Run.done_andThen,
    clearDisplay_answered]
  · have hticks : ∀ t settle : Nat, 24 * t + 0 + (8 * t + settle) = 32 * t + settle := by omega
    simp only [afterClear, markInitialised_eq, sleptLast_cfg, channelAfter_cfg, modLine_cfg, channelAfter_sleptLast,
      sleptLast_sleptLast, channelAfter_started, channelAfter_channelAfter, afterInitialise, initEvents, hseq,
      transferred, pairsSent_seq, hlast, List.append_nil, hticks]
    rfl
  · simpa [State.answers, markInitialised] using answers_channelAfter c 26 8 [] 0 id id s h
  · simpa [markInitialised] using hr

/-- Settles O30: on a fresh channel either operation is DCD.INITIALIZE with all its waits answered. -/
theorem initializeCompletes : Obligations.InitializeCompletes := by
  intro s c i hi hwf hr hinit hstarted ha
  rw [exec_onChannel (meaning := fun c => ifUninitialised c s (initDisplay c s).result) hi rfl rfl,
    ifUninitialised_fresh hinit hstarted, initDisplay_completes hwf hr ha, Run.result_done]

/-- Settles O36: the two checks before DCD.INITIALIZE, in their order. -/
theorem secondInitializeRefused : Obligations.SecondInitializeRefused := by
  intro s c i hi
  rw [exec_onChannel (meaning := fun c => ifUninitialised c s (initDisplay c s).result) hi rfl rfl, ifUninitialised]
  exact ⟨fun hinit => by rw [hinit, if_pos rfl], fun hinit hstarted => by simp [hinit, hstarted]⟩

end Sys2Proof.Machine
end

section
/-! A display operation up to the first of its ready-waits that is not answered (43_display_channel_driver.md R165,
R178). `Progress` says what an operation has done so far, `Performs` what it does altogether: with its waits answered it
returns with all its events done, and otherwise it stands in the wait of the first request that is not answered.
`Performs` composes, so each operation's events are read off its parts. -/

namespace Sys2Proof.Machine

open Sys2Proof.Config

/-! ### Requests in a trace -/

theorem requestCount_append (es fs : List Event) : requestCount (es ++ fs) = requestCount es + requestCount fs := by
  simp [requestCount]

theorem requestCount_cons (e : Event) (es : List Event) :
    requestCount (e :: es) = requestCount es + if (requestChan e).isSome then 1 else 0 := by
  cases h : (requestChan e).isSome <;> simp [requestCount, h]

/-- A request that lies in the first part of a trace. -/
theorem upToRequest_append_of_lt {k : Nat} {es : List Event} (h : k < requestCount es) (fs : List Event) :
    upToRequest k (es ++ fs) = upToRequest k es := by
  induction es generalizing k with
  | nil => exact absurd h (Nat.not_lt_zero k)
  | cons e es ih =>
    rw [requestCount_cons] at h
    cases he : (requestChan e).isSome with
    | false =>
      rw [he] at h
      simp only [List.cons_append, upToRequest, he, Bool.false_eq_true, if_false]
      rw [ih h]
    | true =>
      rw [he] at h
      cases k with
      | zero => simp [upToRequest, he]
      | succ k =>
        simp only [List.cons_append, upToRequest, he, if_true]
        rw [ih (Nat.lt_of_succ_lt_succ h)]

/-- A request that lies behind the first part of a trace. -/
theorem upToRequest_append_add (es fs : List Event) (k : Nat) :
    upToRequest (requestCount es + k) (es ++ fs) = es ++ upToRequest k fs := by
  induction es with
  | nil => simp [requestCount]
  | cons e es ih =>
    rw [requestCount_cons]
    cases he : (requestChan e).isSome with
    | false => simpa [upToRequest, he] using ih
    | true => simpa [upToRequest, he, Nat.add_right_comm] using ih

theorem sleepTime_request {e : Event} {c : Chan} (he : requestChan e = some c) : sleepTime [e] = 0 := by
  cases e with
  | busStart ch => rfl
  | busAddr ch a => rfl
  | busData ch b => rfl
  | _ => cases he

/-! ### What an operation has done so far -/

/-- From `s` to `t` an operation on channel `c` has emitted `es`, `n` of its ready-waits answered; it has worked on its
channel alone. -/
structure Progress (c : Chan) (n : Nat) (es : List Event) (s t : State) : Prop where
  rest : t.without (.channel c) = s.without (.channel c)
  rstIn : t.rstIn = s.rstIn
  events : t.events = s.events ++ es
  time : t.time = s.time + sleepTime es + (s.line c).ready.waited n
  ready : (t.line c).ready = (s.line c).ready.after n

section
variable {c : Chan} {n m : Nat} {es fs : List Event} {s t u : State}

theorem Progress.refl (c : Chan) (s : State) : Progress c 0 [] s s :=
  ⟨rfl, rfl, (List.append_nil _).symm, rfl, rfl⟩

theorem Progress.trans (h : Progress c n es s t) (k : Progress c m fs t u) : Progress c (n + m) (es ++ fs) s u where
  rest := k.rest.trans h.rest
  rstIn := k.rstIn.trans h.rstIn
  events := by rw [k.events, h.events, List.append_assoc]
  time := by rw [k.time, h.time, h.ready, sleepTime_append, Ready.waited_add]; omega
  ready := by rw [k.ready, h.ready, Ready.after_add]

/-- What does not depend on the channel is as before. -/
theorem Progress.read {α : Type} (h : Progress c n es s t) (g : State → α)
    (hg : (fun u : State => g (u.without (.channel c))) = g) : g t = g s := by
  rw [← congrFun hg t, h.rest, congrFun hg s]

theorem Progress.cfg (h : Progress c n es s t) : t.cfg = s.cfg := h.read State.cfg rfl

/-- The waits left to answer after those that have been. -/
theorem Progress.answers (h : Progress c n es s t) (m : Nat) :
    s.answers c (n + m) = (s.answers c n && t.answers c m) := by
  simp only [State.answers, Ready.answers_add, h.ready, h.cfg]

/-- A write of registers is no event. -/
theorem Progress.modDrv (c : Chan) (f : Driver → Driver) (s : State) : Progress c 0 [] s (s.modDrv c f) :=
  ⟨(Keeps.modDrv c f s).rest, by simp, by simp, by simp [sleepTime, Ready.waited], by simp [Ready.after]⟩

/-- A request is put on the bus. -/
theorem Progress.request {e : Event} (he : requestChan e = some c) (f : Driver → Driver) (s : State) :
    Progress c 0 [e] s ((s.modDrv c f).emit e) :=
  ⟨(Keeps.modDrv c f s).rest, by simp, by simp, by simp [sleepTime_request he, Ready.waited], by simp [Ready.after]⟩

theorem Progress.requestStart (c : Chan) (s : State) : Progress c 0 [.busStart c] s (s.requestStart c) := by
  refine ⟨?_, ?_, ?_, ?_, ?_⟩
  · cases c <;> rfl
  all_goals simp [State.requestStart, sleepTime, Ready.waited, Ready.after]

theorem Progress.markInitialised (c : Chan) (s : State) : Progress c 0 [] s (markInitialised c s) := by
  refine ⟨?_, ?_, ?_, ?_, ?_⟩
  · cases c <;> rfl
  all_goals simp [Machine.markInitialised, sleepTime, Ready.waited, Ready.after]

theorem Progress.sleep (c : Chan) (t : Nat) (s : State) :
    Progress c 0 [.delay t] s ((s.beginSleep t).endSleep t) :=
  ⟨rfl, rfl, rfl, rfl, by simp [Ready.after]⟩

theorem Progress.readySeen (c : Chan) (v : View → View) (s : State) :
    Progress c 1 [.busReady c] s (s.readySeen c ((s.line c).ready.pop.1.getD 0) (s.line c).ready.pop.2 v) := by
  refine ⟨?_, ?_, ?_, ?_, ?_⟩
  · cases c <;> rfl
  · simp [State.readySeen]
  · simp [State.readySeen]
  · simp [State.readySeen, sleepTime, Ready.waited]
  · cases c <;> rfl

end

/-! ### A ready-wait that is not answered -/

/-- BusTimeout without a reset at its event (60_exceptions.md R238). -/
theorem readyGivenUp_stop {s : State} (c : Chan) (n : Nat) (hr : s.rstIn = none) :
    s.readyGivenUp c n =
      .stop (({ s with time := s.time + n } : State).setBusTimeout.emit (.busTimeout c)).halt := by
  rw [State.readyGivenUp, State.raise, resetPoint_none (by simpa using hr), Run.done_andThen]

/-- A wait that is not answered does not return to its caller: it lasts for ever, or it is given up
(43_display_channel_driver.md R178, 60_exceptions.md R238). -/
theorem readyWait_unanswered {c : Chan} {s : State} (v : View → View) (h : s.answers c 1 = false)
    (hr : s.rstIn = none) : ∃ t, readyWait c v s = .stop t := by
  rcases readyWait_cases c v s with ⟨w, r, hpop, hw, -⟩ | ⟨-, -, hwait⟩ | ⟨n, -, hwait⟩
  · rw [State.answers, Ready.answers, hpop] at h
    simp [Ready.answers, hw] at h
  · exact ⟨s, hwait⟩
  · exact ⟨_, hwait.trans (readyGivenUp_stop c n hr)⟩

/-- A flag that never sets, without a bound: the block stays in the wait (43_display_channel_driver.md R178). -/
theorem readyWait_never {c : Chan} {s : State} (v : View → View) (hpop : (s.line c).ready.pop.1 = none)
    (hbound : s.cfg.busTimeout = none) : readyWait c v s = .stop s := by
  rcases readyWait_cases c v s with ⟨w, r, hpop', -⟩ | ⟨-, -, hwait⟩ | ⟨n, hbound', -⟩
  · rw [hpop'] at hpop; cases hpop
  · exact hwait
  · rw [hbound'] at hbound; cases hbound

/-! ### What an operation does altogether -/

/-- In a build `p` the operation `f` on channel `c` has the events `es`, as long as no `rst` comes: it returns with all
of them done when its ready-waits are answered; and when only `k` are, it stands in the wait of the request after them,
which is still on the bus. -/
structure Performs (c : Chan) (p : Params) (f : State → Run) (es : List Event) : Prop where
  returns : ∀ s, s.cfg = p → s.rstIn = none → s.answers c (requestCount es) = true →
    ∃ t, f s = .done t ∧ Progress c (requestCount es) es s t
  waits : ∀ s k, s.cfg = p → s.rstIn = none → k < requestCount es → s.answers c k = true →
    s.answers c (k + 1) = false →
    ∃ u v, Progress c k (upToRequest k es) s u ∧ (u.drv c).busReq ≠ .none ∧ f s = readyWait c v u

section
variable {c : Chan} {p : Params} {f g : State → Run} {es fs : List Event}

/-- One operation after another: the wait not answered lies in the first, which then does not return, or in the
second. -/
theorem Performs.andThen (hf : Performs c p f es) (hg : Performs c p g fs) :
    Performs c p (fun s => (f s).andThen g) (es ++ fs) where
  returns s hp hr h := by
    rw [requestCount_append] at h ⊢
    obtain ⟨t, ht, hst⟩ := hf.returns s hp hr (answers_le c _ _ s h)
    rw [hst.answers, Bool.and_eq_true] at h
    obtain ⟨u, hu, htu⟩ := hg.returns t (hst.cfg.trans hp) (hst.rstIn.trans hr) h.2
    exact ⟨u, by rw [ht, Run.done_andThen, hu], hst.trans htu⟩
  waits s k hp hr hk h hnot := by
    rcases Nat.lt_or_ge k (requestCount es) with hlt | hge
    · obtain ⟨u, v, hsu, hbusy, hwait⟩ := hf.waits s k hp hr hlt h hnot
      rw [hsu.answers, h, Bool.true_and] at hnot
      obtain ⟨t, hstop⟩ := readyWait_unanswered v hnot (hsu.rstIn.trans hr)
      rw [← upToRequest_append_of_lt hlt fs] at hsu
      exact ⟨u, v, hsu, hbusy, by rw [hwait, hstop, Run.stop_andThen]⟩
    · obtain ⟨j, rfl⟩ := Nat.exists_eq_add_of_le hge
      obtain ⟨t, ht, hst⟩ := hf.returns s hp hr (answers_le c _ _ s h)
      rw [hst.answers, Bool.and_eq_true] at h
      obtain ⟨hfirst, hj⟩ := h
      rw [Nat.add_assoc, hst.answers, hfirst, Bool.true_and] at hnot
      rw [requestCount_append, Nat.add_lt_add_iff_left] at hk
      obtain ⟨u, v, htu, hbusy, hwait⟩ := hg.waits t j (hst.cfg.trans hp) (hst.rstIn.trans hr) hk hj hnot
      refine ⟨u, v, ?_, hbusy, by rw [ht, Run.done_andThen, hwait]⟩
      rw [upToRequest_append_add]
      exact hst.trans htu

/-- What has no request in it returns. -/
theorem Performs.of_progress {h : State → State} (hes : requestCount es = 0)
    (hf : ∀ s, s.rstIn = none → f s = .done (h s)) (hprogress : ∀ s, Progress c 0 es s (h s)) :
    Performs c p f es where
  returns s _ hr _ := ⟨h s, hf s hr, hes ▸ hprogress s⟩
  waits s k _ _ hk := absurd hk (by rw [hes]; exact Nat.not_lt_zero k)

theorem Performs.silent {h : State → State} (hprogress : ∀ s, Progress c 0 [] s (h s)) :
    Performs c p (fun s => .done (h s)) [] := .of_progress rfl (fun _ _ => rfl) hprogress

theorem Performs.andSilent (hf : Performs c p f es) (hg : Performs c p g []) :
    Performs c p (fun s => (f s).andThen g) es := by
  simpa only [List.append_nil] using hf.andThen hg

/-- A register write goes before. -/
theorem Performs.after (hf : Performs c p f es) (r : Driver → Driver) : Performs c p (fun s => f (s.modDrv c r)) es :=
  (Performs.silent (Progress.modDrv c r)).andThen hf

/-- The parameters are read. -/
theorem Performs.read {F : Params → State → Run} (hF : Performs c p (F p) es) :
    Performs c p (fun s => F s.cfg s) es where
  returns s hp := by subst hp; exact hF.returns s rfl
  waits s k hp := by subst hp; exact hF.waits s k rfl

theorem Performs.sleep (n : Nat) : Performs c p (fun s => s.sleep n) [.delay n] :=
  .of_progress rfl (fun _ hr => sleep_none hr n) (Progress.sleep c n)

/-- A request and the wait for its answer. -/
theorem Performs.request {e : Event} {put : State → State} (he : requestChan e = some c)
    (hput : ∀ s, s.cfg = p → Progress c 0 [e] s (put s)) (hbusy : ∀ s, ((put s).drv c).busReq ≠ .none)
    (v : View → View) : Performs c p (fun s => (resetPoint (put s)).andThen (readyWait c v)) [e, .busReady c] := by
  have hcount : requestCount [e, .busReady c] = 1 := by
    rw [requestCount_cons, he]
    rfl
  have hstands : ∀ s, s.cfg = p → s.rstIn = none →
      (resetPoint (put s)).andThen (readyWait c v) = readyWait c v (put s) := fun s hp hr => by
    rw [resetPoint_none ((hput s hp).rstIn.trans hr), Run.done_andThen]
  refine ⟨fun s hp hr h => ?_, fun s k hp hr hk _ _ => ?_⟩
  · have hs := hput s hp
    rw [hcount] at h ⊢
    rw [← Nat.zero_add 1, hs.answers, Bool.and_eq_true] at h
    have hwait := readyWait_answered c v _ h.2 (hs.rstIn.trans hr)
    exact ⟨_, (hstands s hp hr).trans hwait, hs.trans (.readySeen c v _)⟩
  · obtain rfl : k = 0 := by omega
    have hfirst : upToRequest 0 [e, .busReady c] = [e] := by simp [upToRequest, he]
    exact ⟨put s, v, hfirst ▸ hput s hp, hbusy s, hstands s hp hr⟩

end

/-! ### The events of each operation -/

section
variable {c : Chan} {p : Params}

theorem sendByte_performs (b : Byte) (v : View → View) :
    Performs c p (sendByte c b v) [.busData c b, .busReady c] :=
  .request rfl (fun s _ => .request rfl _ s) (fun s => by simp) v

theorem stepDelay_performs : Performs c p stepDelay [.delay p.tStep] :=
  .read (F := fun p s => s.sleep p.tStep) (.sleep p.tStep)

theorem sendFrame_performs (n : Nibble) (en rs : Bool) (v : View → View) :
    Performs c p (sendFrame c n en rs v) (frameEvents p c n en rs) :=
  ((Performs.read (F := fun p => sendByte c (frame p n en rs) v) (sendByte_performs _ v)).andThen
    stepDelay_performs).andSilent (.silent (Progress.modDrv c _))

theorem sendNibble_performs (n : Nibble) (rs : Bool) (v : View → View) :
    Performs c p (sendNibble c n rs v) (nibbleEvents p c n rs) :=
  (sendFrame_performs n true rs id).andThen (sendFrame_performs n false rs v)

theorem transfer_performs (rs : Bool) (b : Byte) : Performs c p (transfer c rs b) (byteEvents p c rs b) :=
  ((sendNibble_performs (highNibble b) rs id).after _).andThen
    (.read (F := fun p => sendNibble c (lowNibble b) rs (View.receive p rs b)) (sendNibble_performs _ rs _))

theorem finish_performs : Performs c p (finish c) [] :=
  (Performs.silent (Progress.modDrv c fun d => { d with phase := .idle })).after _

theorem setCursor_finish_performs (k : State → BitVec 3) :
    Performs c p (fun s => finish c (setCursor c (k s) s)) [] :=
  (Performs.silent fun s => Progress.modDrv c (fun d => { d with cur := k s }) s).andThen finish_performs

theorem writeCommand_performs (b : Byte) : Performs c p (writeCommand c b) (byteEvents p c false b) :=
  (transfer_performs false b).andSilent finish_performs

theorem writeChar_performs (b : Byte) : Performs c p (writeChar c b) (byteEvents p c true b) :=
  (transfer_performs true b).andSilent (setCursor_finish_performs fun s => (s.drv c).cur + 1)

/-- A command whose byte is a parameter. -/
theorem command_performs (b : Params → Byte) :
    Performs c p (fun s => transfer c false (b s.cfg) s) (byteEvents p c false (b p)) :=
  .read (F := fun p => transfer c false (b p)) (transfer_performs false (b p))

/-- Such a command, with the cursor register set after it. -/
theorem cursorOperation_performs (b : Params → Byte) (k : BitVec 3) :
    Performs c p (fun s => (transfer c false (b s.cfg) s).andThen fun t => finish c (setCursor c k t))
      (byteEvents p c false (b p)) :=
  (command_performs b).andSilent (setCursor_finish_performs fun _ => k)

theorem displayOff_performs : Performs c p (displayOff c) (byteEvents p c false p.cmdDisplayOff) :=
  .read (F := fun p => writeCommand c p.cmdDisplayOff) (writeCommand_performs _)

theorem clearDisplay_performs : Performs c p (clearDisplay c) (clearEvents p c) := by
  have hsettle : Performs c p (fun s => (setPhase c .settle s).sleep s.cfg.tClearSettle) [.delay p.tClearSettle] :=
    .read (F := fun p s => (setPhase c .settle s).sleep p.tClearSettle) ((Performs.sleep p.tClearSettle).after _)
  exact (((command_performs (·.cmdClear)).andThen (command_performs (·.cmdHome))).andThen hsettle).andSilent
    (setCursor_finish_performs fun _ => 0)

theorem sendRaw_performs (b : Byte) :
    Performs c p (sendRaw c b) [.busData c b, .busReady c, .delay p.tStep] :=
  (sendByte_performs b id).andThen stepDelay_performs

theorem sendPairs_performs (ps : List (Byte × Byte)) (j : Nat) :
    Performs c p (sendPairs c ps j) (ps.flatMap (pairEvents p c)) := by
  induction ps generalizing j with
  | nil => exact .silent (Progress.refl c)
  | cons pair ps ih =>
    obtain ⟨first, second⟩ := pair
    exact (((sendRaw_performs first).after fun d => { d with seq := BitVec.ofNat 4 j }).andThen
      (sendRaw_performs second)).andThen (ih (j + 1))

theorem startBus_performs : Performs c p (startBus c) [.busStart c, .busReady c] :=
  .request rfl (fun s _ => (Progress.modDrv c _ s).trans (.requestStart c _))
    (fun s => by simp [State.requestStart]) id

theorem addressBus_performs : Performs c p (addressBus c) [.busAddr c (busAddr p c), .busReady c] :=
  .request rfl (put := fun s => (setPhase c .addr s).requestAddr c (busAddr s.cfg c))
    (fun s hp => hp ▸ (Progress.modDrv c _ s).trans (.request rfl _ _)) (fun s => by simp [State.requestAddr]) id

theorem initDisplay_performs : Performs c p (initDisplay c) (initEvents p c) := by
  have hpairs : Performs c p (fun s => sendPairs c s.cfg.initSeq 0 (setPhase c .seq s))
      (p.initSeq.flatMap (pairEvents p c)) :=
    .read (F := fun p s => sendPairs c p.initSeq 0 (setPhase c .seq s)) ((sendPairs_performs p.initSeq 0).after _)
  have hclear : Performs c p (fun s => clearDisplay c (markInitialised c s)) (clearEvents p c) :=
    (Performs.silent (Progress.markInitialised c)).andThen clearDisplay_performs
  exact ((startBus_performs.andThen addressBus_performs).andThen hpairs).andThen hclear

/-- What DCD.INITIALIZE does on the channel it is named for. -/
theorem exec_initialize_performs {i : Instr} (hi : displayChan i = some c)
    (hinit : i = .dcdInitializeCh1 ∨ i = .dcdInitializeCh2) :
    Performs c p (initDisplay c) (displayEvents p i) ∧
      ∀ s, exec i s = ifUninitialised c s (initDisplay c s).result := by
  rcases hinit with rfl | rfl <;> cases hi <;> exact ⟨initDisplay_performs, fun _ => rfl⟩

/-- What any other display operation does on its channel. -/
theorem exec_performs {i : Instr} (hi : displayChan i = some c)
    (hinit : ¬ (i = .dcdInitializeCh1 ∨ i = .dcdInitializeCh2)) :
    ∃ f, Performs c p f (displayEvents p i) ∧ ∀ s, exec i s = ifInitialised c s (f s) := by
  cases i with
  | dcdInitializeCh1 => exact absurd (.inl rfl) hinit
  | dcdInitializeCh2 => exact absurd (.inr rfl) hinit
  | dcdSendbyteCh1 b => cases hi; exact ⟨_, sendByte_performs b id, fun _ => rfl⟩
  | dcdSendbyteCh2 b => cases hi; exact ⟨_, sendByte_performs b id, fun _ => rfl⟩
  | dcdSendnibbleCh1 n rs => cases hi; exact ⟨_, sendNibble_performs n rs id, fun _ => rfl⟩
  | dcdSendnibbleCh2 n rs => cases hi; exact ⟨_, sendNibble_performs n rs id, fun _ => rfl⟩
  | dcdWritecommandCh1 b => cases hi; exact ⟨_, writeCommand_performs b, fun _ => rfl⟩
  | dcdWritecommandCh2 b => cases hi; exact ⟨_, writeCommand_performs b, fun _ => rfl⟩
  | dcdWritecharCh1 b => cases hi; exact ⟨_, writeChar_performs b, fun _ => rfl⟩
  | dcdWritecharCh2 b => cases hi; exact ⟨_, writeChar_performs b, fun _ => rfl⟩
  | dcdClearCh1 => cases hi; exact ⟨_, clearDisplay_performs, fun _ => rfl⟩
  | dcdClearCh2 => cases hi; exact ⟨_, clearDisplay_performs, fun _ => rfl⟩
  | dcdMovecursorCh1 o => cases hi; exact ⟨_, cursorOperation_performs (cursorCommand · o) _, fun _ => rfl⟩
  | dcdMovecursorCh2 o => cases hi; exact ⟨_, cursorOperation_performs (cursorCommand · o) _, fun _ => rfl⟩
  | dcdDisplayoffCh1 => cases hi; exact ⟨_, displayOff_performs, fun _ => rfl⟩
  | dcdDisplayoffCh2 => cases hi; exact ⟨_, displayOff_performs, fun _ => rfl⟩
  | dcClear d => cases hi; exact ⟨_, cursorOperation_performs (·.cmdClear) 0, fun _ => rfl⟩
  | dcHome d => cases hi; exact ⟨_, cursorOperation_performs (·.cmdHome) 0, fun _ => rfl⟩
  | dcSetcursor d o => cases hi; exact ⟨_, cursorOperation_performs (cursorCommand · o) _, fun _ => rfl⟩
  | dcDisplayoff d => cases hi; exact ⟨_, displayOff_performs, fun _ => rfl⟩
  | dcWritechar d b => cases hi; exact ⟨_, writeChar_performs b, fun _ => rfl⟩
  | bfCommand d n en => cases hi; exact ⟨_, sendFrame_performs n en false id, fun _ => rfl⟩
  | bfCharacter d n en => cases hi; exact ⟨_, sendFrame_performs n en true id, fun _ => rfl⟩
  | _ => cases hi

/-- What a display operation does on a channel that is as it needs it (43_display_channel_driver.md R163, R170). -/
theorem exec_performs_of_channelFits {i : Instr} {s : State} (hi : displayChan i = some c) (hfits : channelFits i c s) :
    ∃ f, Performs c p f (displayEvents p i) ∧ exec i s = (f s).result := by
  by_cases hinit : i = .dcdInitializeCh1 ∨ i = .dcdInitializeCh2
  · rw [channelFits, if_pos hinit] at hfits
    obtain ⟨hfresh, hstarted⟩ := hfits
    obtain ⟨hf, hexec⟩ := exec_initialize_performs (p := p) hi hinit
    exact ⟨_, hf, by rw [hexec, ifUninitialised_fresh hfresh hstarted]⟩
  · rw [channelFits, if_neg hinit] at hfits
    obtain ⟨f, hf, hexec⟩ := exec_performs (p := p) hi hinit
    exact ⟨f, hf, by rw [hexec, ifInitialised_ready hfits]⟩

end

/-- Settles O35: every such operation checks `d_init` before anything else. -/
theorem refusedBeforeInit : Obligations.RefusedBeforeInit := by
  intro s c i hi h1 h2 hinited
  obtain ⟨f, -, hexec⟩ := exec_performs (p := s.cfg) hi (not_or.2 ⟨h1, h2⟩)
  rw [hexec, ifInitialised, hinited, if_neg Bool.false_ne_true]

/-! ### A flag that never sets -/

/-- A block whose step changes nothing stays as it is for ever. -/
theorem run_of_step_self {s : State} (h : step s = .next s) (n : Nat) : core.run n s = .next s := by
  induction n with
  | zero => rfl
  | succ n ih => rw [run_succ_of_step h, ih]

/-- In a ready-wait whose flag never sets nothing happens (43_display_channel_driver.md R178). -/
theorem step_of_stalled {s : State} (hwf : s.cfg.wf = true) (hrst : s.rst = false) (h : s.stalled = true) :
    step s = .next s := by
  simp [step, hwf, hrst, h]

/-- The next wait after `k` is not answered where the flag never sets. -/
theorem not_answers_of_never {c : Chan} {s : State} {k : Nat} (h : ((s.line c).ready.after k).pop.1 = none) :
    s.answers c (k + 1) = false := by
  rw [State.answers, Ready.answers_add, Ready.answers, h, Bool.and_false]

/-- DCD.SENDBYTE whose flag never sets: the request stands on the bus. -/
theorem sendByte_never {c : Chan} {s : State} (b : Byte) (v : View → View) (hr : s.rstIn = none)
    (hbound : s.cfg.busTimeout = none) (hpop : (s.line c).ready.pop.1 = none) :
    sendByte c b v s = .stop (s.requestData c b) := by
  have hput : Progress c 0 [.busData c b] s (s.requestData c b) := .request rfl _ s
  rw [sendByte, writeData, resetPoint_none (hput.rstIn.trans hr), Run.done_andThen]
  exact readyWait_never v (by rw [hput.ready]; exact hpop) (by rw [hput.cfg]; exact hbound)

/-- Settles O33: the operation stands in the wait of the request after the answered ones, and no step leaves it. -/
theorem busStallHangs : Obligations.BusStallHangs := by
  refine ⟨?_, ?_⟩
  · intro s b c i hi hr hinit hbound hpop
    rw [exec_onChannel (meaning := fun c => ifInitialised c s (sendByte c b id s)) hi rfl rfl,
      ifInitialised_ready hinit, sendByte_never b id hr hbound hpop, Run.result_stop, State.requestData, State.emit,
      modDrv_events]
  · intro s c i k hwf hrst hr hi hfits hbound hk ha hpop
    obtain ⟨f, hf, hexec⟩ := exec_performs_of_channelFits (p := s.cfg) hi hfits
    obtain ⟨u, v, hsu, hbusy, hwait⟩ := hf.waits s k rfl hr hk ha (not_answers_of_never hpop)
    have hstop : readyWait c v u = .stop u :=
      readyWait_never v (by rw [hsu.ready]; exact hpop) (by rw [hsu.cfg]; exact hbound)
    have hstays : step u = .next u :=
      step_of_stalled (by rw [hsu.cfg]; exact hwf) (hsu.read (·.rst) rfl ▸ hrst) (stalled_of_busy hbusy)
    exact ⟨u, by rw [hexec, hwait, hstop, Run.result_stop], hsu.events, hsu.time, hsu.read (·.stNomatch) rfl,
      hsu.read (·.stBusTimeout) rfl, hsu.read (·.stDone) rfl, hsu.read (·.scPhase) rfl, run_of_step_self hstays⟩

end Sys2Proof.Machine
end

section
/-! The LED player (44_led_morse_player.md R191 to R198): the marks of a word and their gaps take the time of the
formula, and a play looks at no more of a word than its `len` marks. -/

namespace Sys2Proof.Machine

open Sys2Proof.Config

theorem exec_lmpPlay {w : Byte} (h : markCount w ≤ 5) (s : State) : exec (.lmpPlay w) s = (playWord w s).result :=
  if_pos h

theorem exec_lmpPlay_of_long {w : Byte} (h : 5 < markCount w) (s : State) :
    exec (.lmpPlay w) s = .refused .morseLength :=
  if_neg (Nat.not_le.2 h)

/-- The inter-character gap without a reset in it. -/
theorem charGap_eq (s : State) (hr : s.rstIn = none) :
    charGap s = .done { s with
      lmpState := .gapOff, dlyReq := false, dlyLen := s.cfg.tCharGap,
      events := s.events ++ [.delay s.cfg.tCharGap], time := s.time + s.cfg.tCharGap } := by
  rw [charGap, sleep_none (by simpa using hr)]
  rfl

/-! ### The time of the marks -/

/-- A dot takes `2·T_DOT` and a dash `T_DASH + T_DOT`, whatever their order (44_led_morse_player.md R194). -/
theorem sum_holdTime (p : Params) (ms : List Bool) :
    (ms.map fun m => holdTime p m + p.tDot).sum =
      ms.count false * (p.tDot + p.tDot) + ms.count true * (p.tDash + p.tDot) := by
  induction ms with
  | nil => simp
  | cons m ms ih =>
    rw [List.map_cons, List.sum_cons, ih]
    cases m <;> simp [holdTime, Nat.add_mul] <;> omega

theorem marksTime_markCount (p : Params) (w : Byte) :
    marksTime p w (markCount w) 0 = dots w * (p.tDot + p.tDot) + dashes w * (p.tDash + p.tDot) := by
  rw [dots, dashes, ← sum_holdTime, marksOf, List.map_map, List.range_eq_range']
  rfl

/-! ### A play -/

/-- A play of at least one mark without a reset in it: the marks, then the character gap. -/
theorem playWord_completes {w : Byte} {s : State} (hr : s.rstIn = none) (h : 1 ≤ markCount w) :
    playWord w s = .done (afterPlay w s) := by
  obtain ⟨n, hn⟩ := Nat.exists_eq_add_of_le' h
  have htime := marksTime_markCount s.cfg w
  rw [hn] at htime
  rw [playWord, hn, playMarks_eq w n 0 s hr, Run.done_andThen, charGap_eq _ (by exact hr), Run.done_andThen]
  simp [afterPlay, setPlayer, playEvents, playTime, marksOf, hn, htime, List.flatMap_map, List.range_eq_range',
    Nat.add_assoc]

/-- Settles O39: the marks with their gaps in order, then the character gap. -/
theorem playCompletes : Obligations.PlayCompletes := by
  intro s w hr hpos hlen
  rw [exec_lmpPlay hlen, playWord_completes hr hpos, Run.result_done]

/-- Settles O40: a play of no marks is the character gap alone. -/
theorem playOfEmptyWord : Obligations.PlayOfEmptyWord := by
  intro s w hr hempty
  rw [exec_lmpPlay (by omega), playWord, hempty, playMarks, Run.done_andThen, charGap_eq s hr, Run.done_andThen,
    Run.result_done]
  rfl

/-! ### What a play looks at -/

theorem playMark_congr {w w' : Byte} {i : Nat} (h : markAt w i = markAt w' i) (s : State) :
    playMark w i s = playMark w' i s := by
  simp only [playMark, markOn, h]

theorem playMarks_congr {w w' : Byte} {n i : Nat} (h : ∀ j, j < i + n → markAt w j = markAt w' j) :
    playMarks w n i = playMarks w' n i := by
  induction n generalizing i with
  | zero => rfl
  | succ n ih =>
    have hrest : playMarks w n (i + 1) = playMarks w' n (i + 1) := ih fun j hj => h j (by omega)
    funext s
    rw [playMarks, playMarks, playMark_congr (h i (by omega)), hrest]

theorem playWord_congr {w w' : Byte} (hlen : markCount w = markCount w')
    (h : ∀ i, i < markCount w → markAt w i = markAt w' i) (s : State) : playWord w s = playWord w' s := by
  rw [playWord, playWord, ← hlen, playMarks_congr (i := 0) fun j hj => h j (by omega)]

/-- Settles O41: `len` alone decides on the refusal, and the marks below it on the rest. -/
theorem playRefusesLongWords : Obligations.PlayRefusesLongWords := by
  refine ⟨fun s w hlong => exec_lmpPlay_of_long (by omega) s, fun s w w' hlen h => ?_⟩
  rcases Nat.lt_or_ge 5 (markCount w) with hlong | hshort
  · rw [exec_lmpPlay_of_long hlong, exec_lmpPlay_of_long (hlen ▸ hlong)]
  · rw [exec_lmpPlay hshort, exec_lmpPlay (hlen ▸ hshort), playWord_congr hlen h]

end Sys2Proof.Machine
end

section
/-! SC.START and SC.TERMINATE when their ready-waits are answered (45_session_controller.md R207, R221), and `SC_HALT`
(R222). -/

namespace Sys2Proof.Machine

open Sys2Proof.Config

/-! ### `SC_HALT` -/

theorem step_of_halt {s : State} (hwf : s.cfg.wf = true) (hrst : s.rst = false) (hp : s.scPhase = .halt) :
    step s = .next s := by
  simp [step, hwf, hrst, State.halted, hp]

/-- Settles O48: a step in `SC_HALT` changes nothing, and so does any number of them. -/
theorem haltIsFinal : Obligations.HaltIsFinal := fun _ n hwf hrst hp => run_of_step_self (step_of_halt hwf hrst hp) n

/-! ### The other channel's answers -/

/-- An operation on one channel takes none of the other's answers (43_display_channel_driver.md R161). -/
theorem Keeps.answers_other {c c' : Chan} {s t : State} (h : Keeps (.channel c) s t) (hc : c' ≠ c) (n : Nat) :
    t.answers c' n = s.answers c' n := by
  rw [State.answers, State.answers, h.otherLine hc, h.read State.cfg rfl]

@[simp] theorem setSc_answers (ph : ScPhase) (s : State) (c : Chan) (n : Nat) :
    (setSc ph s).answers c n = s.answers c n := by cases c <;> rfl

/-! ### SC.START -/

/-- Both channels are as DCD.INITIALIZE needs them (43_display_channel_driver.md R170). -/
theorem exec_scStart {s : State} (hi1 : s.drv1.inited = false) (hi2 : s.drv2.inited = false)
    (hs1 : s.line1.started = false) (hs2 : s.line2.started = false) : exec .scStart s = (startSession s).result := by
  simp only [exec, execScStart, ifSessionNew]
  rw [ifUninitialised_fresh (c := .ch1) hi1 hs1, ifUninitialised_fresh (c := .ch2) hi2 hs2]

/-- The session is started in an admitted build when both flags answer their 34 waits (45_session_controller.md
R207). -/
theorem startSession_completes {s : State} (hwf : s.cfg.wf = true) (hr : s.rstIn = none)
    (h1 : s.answers .ch1 34 = true) (h2 : s.answers .ch2 34 = true) :
    startSession s = .done { afterInitialise .ch2 (afterInitialise .ch1 s) with scPhase := .check } := by
  have hfirst : initDisplay .ch1 (setSc .init1 s) = .done (afterInitialise .ch1 (setSc .init1 s)) :=
    initDisplay_completes hwf hr (by simpa using h1)
  have hworked := initDisplay_works .ch1 (setSc .init1 s)
  rw [hfirst] at hworked
  have h2' : (setSc .init2 (afterInitialise .ch1 (setSc .init1 s))).answers .ch2 34 = true := by
    rw [setSc_answers, hworked.keeps.answers_other (by decide), setSc_answers, h2]
  rw [startSession, hfirst, Run.done_andThen, initDisplay_completes (by exact hwf) (by exact hr) h2']
  rfl

/-- Settles O42: the two initialisations in their order. -/
theorem startCompletes : Obligations.StartCompletes := by
  intro s hwf hr hi1 hi2 hs1 hs2 h1 h2
  rw [exec_scStart hi1 hi2 hs1 hs2, startSession_completes hwf hr h1 h2, Run.result_done]

/-! ### SC.TERMINATE -/

theorem exec_scTerminate {s : State} (hi1 : s.drv1.inited = true) (hi2 : s.drv2.inited = true) :
    exec .scTerminate s = (terminateSession s).result := by
  simp [exec, execScTerminate, ifSessionOpen, ifInitialised, hi1, hi2]

/-- Display-off in an admitted build when the flag answers (43_display_channel_driver.md R177). -/
theorem displayOff_answered {c : Chan} {s : State} (hwf : s.cfg.wf = true) (hr : s.rstIn = none)
    (ha : s.answers c 4 = true) :
    displayOff c s = .done (afterTransfer c false s.cfg.cmdDisplayOff id (fun v => { v with on := false }) s) := by
  rw [displayOff, writeCommand_answered c _ s ha hr, funext (View.command_displayOff hwf)]

/-- The state a run ends in from `s` on: both displays off, `st_done`, `Done`, `SC_HALT` (45_session_controller.md
R221). -/
def afterTerminate (s : State) : State :=
  let off := fun (c : Chan) (u : State) =>
    afterTransfer c false u.cfg.cmdDisplayOff id (fun v => { v with on := false }) u
  let t := off .ch2 (off .ch1 s)
  { t with stDone := true, scPhase := .halt, events := t.events ++ [.done] }

theorem terminateSession_completes {s : State} (hwf : s.cfg.wf = true) (hr : s.rstIn = none)
    (h1 : s.answers .ch1 4 = true) (h2 : s.answers .ch2 4 = true) :
    terminateSession s = .done (afterTerminate s) := by
  have hfirst := displayOff_answered (c := .ch1) (s := setSc .off1 s) hwf hr (by simpa using h1)
  have hworked := writeCommand_works .ch1 s.cfg.cmdDisplayOff (setSc .off1 s)
  rw [show writeCommand .ch1 s.cfg.cmdDisplayOff (setSc .off1 s) = _ from hfirst] at hworked
  have h2' := hworked.keeps.answers_other (c' := .ch2) (by decide) 4
  rw [setSc_answers, h2] at h2'
  rw [terminateSession, hfirst, Run.done_andThen, displayOff_answered (by exact hwf) (by exact hr) (by simpa using h2'),
    Run.done_andThen, haltDone, resetPoint_none (by exact hr)]
  rfl

/-- Settles O45: the two display-off transfers and the end of the run. -/
theorem terminateCompletes : Obligations.TerminateCompletes := by
  intro s hwf hr hi1 hi2 h1 h2
  rw [exec_scTerminate hi1 hi2, terminateSession_completes hwf hr h1 h2, Run.result_done]
  rfl

end Sys2Proof.Machine
end

section
/-! The transitions of the controller (45_session_controller.md R206): the operation of a component keeps its phase,
unless a wait is given up (60_exceptions.md R238) or `rst` comes; a phase of the walk then goes on to the next. -/

namespace Sys2Proof.Machine

open Sys2Proof.Config

/-! ### The phase across an operation of a component -/

/-- The controller is in the phase it was in; or a bounded wait was given up and it has halted; or `rst` came. -/
inductive PhaseKept (s t : State) : Prop
  | stays (hp : t.scPhase = s.scPhase)
  | halted (hp : t.scPhase = .halt) (hflag : t.stBusTimeout = true) (hbound : s.cfg.busTimeout.isSome = true)
  | reset (hp : t.scPhase = .reset) (hrst : t.rst = true)

/-- The operation returns in the phase and the build it was begun in, or stops. -/
def HoldsPhase (s : State) (r : Run) : Prop :=
  r.Ends (fun t => t.cfg = s.cfg ∧ t.scPhase = s.scPhase) (PhaseKept s)

theorem PhaseKept.after {s t u : State} (hcfg : t.cfg = s.cfg) (hp : t.scPhase = s.scPhase) (h : PhaseKept t u) :
    PhaseKept s u := by
  cases h with
  | stays h => exact .stays (h.trans hp)
  | halted h hflag hbound => exact .halted h hflag (hcfg ▸ hbound)
  | reset h hrst => exact .reset h hrst

theorem HoldsPhase.result {s t : State} {r : Run} (h : HoldsPhase s r) (ht : r.result = .next t) : PhaseKept s t :=
  (Run.Ends.result h ht).elim (fun hu => .stays hu.2) id

theorem PhaseKept.of_wasReset {s t : State} (h : WasReset s t) : PhaseKept s t :=
  .reset (congrArg Block.scPhase h.block) h.rst

theorem resetPoint_holdsPhase {s u : State} (hcfg : u.cfg = s.cfg) (hp : u.scPhase = s.scPhase) :
    HoldsPhase s (resetPoint u) :=
  resetPoint_ends u (fun _ _ => ⟨hcfg, hp⟩) fun _ => .reset rfl rfl

theorem sleep_holdsPhase (s : State) (n : Nat) : HoldsPhase s (s.sleep n) :=
  sleep_ends .player s n (fun _ _ => ⟨rfl, rfl⟩) fun _ => .of_wasReset

/-- A wait is given up only under a bound (60_exceptions.md R238). -/
theorem readyWait_holdsPhase (c : Chan) (v : View → View) (s : State) : HoldsPhase s (readyWait c v s) := by
  rcases readyWait_cases c v s with ⟨w, r, -, -, h⟩ | ⟨-, -, h⟩ | ⟨n, hn, h⟩ <;> rw [h]
  · exact resetPoint_holdsPhase (by simp [State.readySeen]) (by simp [State.readySeen])
  · exact .stays rfl
  · refine Run.Ends.andThen (P := fun t => t.stBusTimeout = true)
      (resetPoint_ends _ (fun _ _ => rfl) fun _ => .reset rfl rfl) fun t ht => ?_
    exact .halted rfl ht (by rw [hn]; rfl)

theorem ChannelOp.holdsPhase {c : Chan} {i j : BusStage} {f : State → Run} (h : ChannelOp c i j f) (s : State) :
    HoldsPhase s (f s) := by
  induction h generalizing s with
  | done => exact ⟨rfl, rfl⟩
  | andThen _ _ ihf ihg =>
    exact Run.Ends.andThen (ihf s) fun t ⟨hcfg, hp⟩ =>
      (ihg t).mono (fun _ hu => ⟨hu.1.trans hcfg, hu.2.trans hp⟩) fun _ => .after hcfg hp
  | read _ ih => exact ih s.cfg s
  | write f _ => exact ⟨by simp, by simp⟩
  | sleep n => exact sleep_holdsPhase s n
  | wait v => exact readyWait_holdsPhase c v s
  | start => exact resetPoint_holdsPhase (by simp [State.requestStart]) (by simp [State.requestStart])
  | addr => exact resetPoint_holdsPhase (by simp [State.requestAddr]) (by simp [State.requestAddr])
  | data b => exact resetPoint_holdsPhase (by simp [State.requestData]) (by simp [State.requestData])
  | mark => exact ⟨by simp [markInitialised], by simp [markInitialised]⟩

theorem Keeps.holdsPhase {x : Component} {s t : State} (h : Keeps x s t) :
    t.cfg = s.cfg ∧ t.scPhase = s.scPhase :=
  ⟨h.read State.cfg rfl, h.read (·.scPhase) rfl⟩

theorem Scans.holdsPhase {v : Nibble} {s : State} {r : Run} (h : Scans v s r) : HoldsPhase s r :=
  h.mono (fun _ ht => ht.keeps.holdsPhase) fun _ ht => by
    cases ht with
    | reset h => exact .of_wasReset h
    | waiting h _ => exact .stays h.keeps.holdsPhase.2

theorem playWord_holdsPhase (w : Byte) (s : State) : HoldsPhase s (playWord w s) :=
  (playWord_ends w s).mono (fun _ ht => ht.1.keeps.holdsPhase) fun _ => .of_wasReset

theorem windowSettle_holdsPhase (s : State) : HoldsPhase s (windowSettle s) :=
  (sleep_holdsPhase (emptyWindow s) _).mono (fun _ => id) fun _ => .after rfl rfl

/-- Only the operations of the controller itself change its phase. -/
theorem exec_phaseKept {i : Instr} (hi : controllerOp i = false) {s t : State} (h : exec i s = .next t) :
    PhaseKept s t := by
  rcases hd : displayChan i with _ | c
  · cases i with
    | ksReaddigit => exact (readDigit_scans s).holdsPhase.result h
    | ceEncrypt d q => cases h; exact .stays rfl
    | meEncode d => cases h; exact .stays rfl
    | lmpPlay w => exact (playWord_holdsPhase w s).result (execLmpPlay_next h)
    | scStart | scIterate | scTerminate | scRun => cases hi
    | mwDigit0 | mwDigit1 | mwDigit2 | mwDigit3 | mwDigit4 | mwDigit5 | mwDigit6 | mwDigit7 | mwDigit8 | mwDigit9
    | mwEmpty => cases h; exact .stays rfl
    | kpSlot0Key0 | kpSlot1Key1 | kpSlot2Key2 | kpSlot3Key3 | kpSlot4Key4 | kpSlot5Key5 | kpSlot6Key6 | kpSlot7Key7
    | kpSlot8Key8 | kpSlot9Key9 | kpSlot10KeyA | kpSlot11KeyB | kpSlot12KeyC | kpSlot13KeyD | kpSlot14KeyStar
    | kpSlot15KeyHash => exact (slotPattern_scans _ s).holdsPhase.result h
    | _ => cases hd
  · rcases exec_displayOp hd with ⟨f, hf, he⟩ | he <;> rw [he] at h
    · exact (hf.holdsPhase s).result (ifInitialised_next h)
    · exact ((initDisplay_op c).holdsPhase s).result (ifUninitialised_next h)

/-! ### The phases of the walk -/

/-- The controller has gone on to the phase `q`, or what its operation allows has happened. -/
def WalksTo (q : ScPhase) (s t : State) : Prop := t.scPhase = q ∨ PhaseKept s t

/-- What follows an operation of a phase is performed in that phase. -/
theorem performAfter_walksTo {q : ScPhase} {s t : State} {r : Host.Outcome State Fault Refusal} {f : State → Run}
    (h : performAfter r f = .next t) (hr : ∀ u, r = .next u → PhaseKept s u)
    (hf : ∀ u v, u.scPhase = s.scPhase → (f u).result = .next v → WalksTo q s v) : WalksTo q s t := by
  cases r with
  | next u =>
    simp only [performAfter] at h
    have hu := hr u rfl
    split at h
    · next hfree =>
      obtain ⟨hrst, -, -, hhalt⟩ := (free_iff u).1 hfree
      cases hu with
      | stays hp => exact hf u t hp h
      | halted hp _ _ => exact absurd hp hhalt
      | reset _ hp => rw [hrst] at hp; cases hp
    · cases h; exact .inr hu
  | fault e => cases h
  | refused e => cases h

theorem whenReturned_walksTo {q : ScPhase} {s t : State} {r : Host.Outcome State Fault Refusal} {g : State → State}
    (h : whenReturned r g = .next t) (hr : ∀ u, r = .next u → PhaseKept s u)
    (hg : ∀ u, u.scPhase = s.scPhase → WalksTo q s (g u)) : WalksTo q s t :=
  performAfter_walksTo h hr fun u _ hp hv => by cases hv; exact hg u hp

/-- A phase that performs a component's operation and then goes on to `q`. -/
theorem componentPhase_walksTo {i : Instr} (hi : controllerOp i = false) {q : ScPhase} {s t : State}
    {g : State → State} (h : whenReturned (exec i s) g = .next t)
    (hg : ∀ u, u.scPhase = s.scPhase → WalksTo q s (g u)) : WalksTo q s t :=
  whenReturned_walksTo h (fun _ => exec_phaseKept hi) hg

theorem walkCipher_walksTo {s t : State} (h : walkEncode (walkCipher s) = .next t) : WalksTo .ch1pos s t := by
  cases hc : walkCipher s with
  | next u =>
    rw [hc] at h
    have hu : PhaseKept s u := by
      rcases componentPhase_walksTo (q := s.scPhase) rfl hc fun v hv => .inr (.stays hv) with hp | hu
      exacts [.stays hp, hu]
    refine whenReturned_walksTo h (fun v hv => ?_) fun v _ => .inl rfl
    cases hv
    cases hu with
    | stays hp => exact .stays hp
    | halted hp hflag hbound => exact .halted hp hflag hbound
    | reset hp hrst => exact .reset hp hrst
  | fault e => rw [hc] at h; cases h
  | refused e => rw [hc] at h; cases h

theorem walkMark_walksTo {s t : State} (h : walkMark s = .next t) : WalksTo .play s t := by
  unfold walkMark at h
  split at h
  · refine componentPhase_walksTo rfl h fun u hu => ?_
    unfold afterMark
    split
    · exact .inr (.stays hu)
    · exact .inl rfl
  · cases h; exact .inl rfl

theorem checkPhase_scPhase {s : State} (hp : s.scPhase = .check) : (checkPhase s).scPhase = s.nextPhase := by
  simp only [checkPhase, State.nextPhase, hp]
  split
  · rfl
  · split <;> rfl

/-- The end of the run: `SC_HALT`, unless `rst` comes at its event (45_session_controller.md R221). -/
theorem haltDone_walksTo {s u v : State} (h : (haltDone u).result = .next v) : WalksTo .halt s v := by
  have hends : (haltDone u).Ends (WalksTo .halt s) (WalksTo .halt s) :=
    Run.Ends.andThen (P := fun _ => True) (resetPoint_ends _ (fun _ _ => trivial) fun _ => .inr (.reset rfl rfl))
      fun _ _ => .inl rfl
  exact (Run.Ends.result hends h).elim id id

/-- Every phase of the walk goes on to the phase the rule names (45_session_controller.md R206). -/
theorem walk_walksTo {s t : State} (h : walk s = .next t) : WalksTo s.nextPhase s t := by
  unfold walk at h
  cases hp : s.scPhase <;> simp only [hp] at h <;> simp only [State.nextPhase, hp]
  case reset => cases h; exact .inl rfl
  case init1 => exact componentPhase_walksTo rfl h fun _ _ => .inl rfl
  case init2 => exact componentPhase_walksTo rfl h fun _ _ => .inl rfl
  case check =>
    cases h
    have hnext := checkPhase_scPhase hp
    simp only [State.nextPhase, hp] at hnext
    exact .inl hnext
  case wclr1 => exact componentPhase_walksTo rfl h fun _ _ => .inl rfl
  case wclr2 => exact componentPhase_walksTo rfl h fun _ _ => .inl rfl
  case wsettle => exact whenReturned_walksTo h (fun _ => (windowSettle_holdsPhase s).result) fun _ _ => .inl rfl
  case read => exact componentPhase_walksTo rfl h fun _ _ => .inl rfl
  case cipher => exact walkCipher_walksTo h
  case ch1pos =>
    have hi : controllerOp (positionInstr s) = false := by unfold positionInstr; split <;> rfl
    exact componentPhase_walksTo hi h fun _ _ => .inl rfl
  case ch1wr => exact componentPhase_walksTo rfl h fun _ _ => .inl rfl
  case ch2clr => exact componentPhase_walksTo rfl h fun _ _ => .inl rfl
  case ch2dig => exact componentPhase_walksTo rfl h fun _ _ => .inl rfl
  case ch2mrk => exact walkMark_walksTo h
  case play => exact componentPhase_walksTo rfl h fun _ _ => .inl rfl
  case adv => cases h; exact .inl rfl
  case off1 => exact componentPhase_walksTo rfl h fun _ _ => .inl rfl
  case off2 =>
    exact performAfter_walksTo h (fun _ => exec_phaseKept rfl) fun _ _ _ => haltDone_walksTo
  case halt => cases h; exact .inl hp

/-- A waiting scan keeps the phase; when it captures in `SC_READ` the controller goes on (45_session_controller.md
R212). -/
theorem scanOn_walksTo {s t : State} (hk : s.ksPhase ≠ .idle) (h : scanOn s = .next t) :
    WalksTo s.nextPhase s t := by
  have hscan := (resumeScan_scans s hk).holdsPhase
  unfold scanOn at h
  cases hr : resumeScan s with
  | done u =>
    rw [hr] at h hscan
    obtain ⟨-, hp⟩ := hscan
    cases h
    split
    · next hread => exact .inl (by simp only [State.nextPhase, ← hp, hread]; rfl)
    · exact .inr (.stays hp)
  | stop u =>
    rw [hr] at h hscan
    cases h
    exact .inr hscan

/-- Settles O49: by the cases of a step with nothing presented. -/
theorem phaseWalk : Obligations.PhaseWalk := by
  intro s t hrst hslot h
  have hwalks : WalksTo s.nextPhase s t := by
    rcases step_cases hrst h with ⟨-, rfl⟩ | ⟨-, -, hscanning, hscan⟩ | ⟨-, c, hc, -⟩ | ⟨-, -, hwalk⟩
    · exact .inr (.stays rfl)
    · exact scanOn_walksTo (by simpa [State.scanning] using hscanning) hscan
    · rw [hslot] at hc; cases hc
    · exact walk_walksTo hwalk
  rcases hwalks with hp | hp | ⟨hp, hflag, hbound⟩ | ⟨hp, hrst'⟩
  · exact .inr (.inl hp)
  · exact .inl hp
  · exact .inr (.inr (.inl ⟨hp, hflag, hbound⟩))
  · exact .inr (.inr (.inr ⟨hp, hrst'⟩))

end Sys2Proof.Machine
end

section
/-! The phase walk performs what SC.ITERATE and SC.RUN perform as one operation (45_session_controller.md R205, R206,
R209): each phase of the walk is one step, which performs the phase's operation and goes on to the next phase, or stops
with it. -/

namespace Sys2Proof.Machine

open Sys2Proof.Config

/-! ### Runs of the machine -/

/-- Some number of steps leads from `s` to `t`. -/
def Reaches (s t : State) : Prop := ∃ n, core.run n s = .next t

theorem Reaches.refl (s : State) : Reaches s s := ⟨0, rfl⟩

theorem Reaches.of_step {s t : State} (h : step s = .next t) : Reaches s t := ⟨1, run_succ_of_step h 0⟩

theorem run_add {m : Nat} {s t : State} (h : core.run m s = .next t) (n : Nat) :
    core.run (m + n) s = core.run n t := by
  induction m generalizing s with
  | zero => cases h; rw [Nat.zero_add]
  | succ m ih =>
    rw [Nat.succ_add]
    simp only [Host.Core.run] at h ⊢
    split at h
    · exact ih h
    · cases h
    · cases h

theorem Reaches.trans {s t u : State} (h : Reaches s t) (k : Reaches t u) : Reaches s u := by
  obtain ⟨m, hm⟩ := h
  obtain ⟨n, hn⟩ := k
  exact ⟨m + n, (run_add hm n).trans hn⟩

/-! ### A phase of the walk -/

/-- The next step is the walk's: the block is open, and nothing is presented. -/
structure WalksOn (s : State) : Prop where
  isOpen : s.open
  noSlot : s.slot = none

theorem WalksOn.step {s : State} (h : WalksOn s) : step s = walk s := by
  obtain ⟨⟨hwf, hrst, hfree⟩, hslot⟩ := h
  simp only [State.free, hrst, Bool.and_eq_true, Bool.not_eq_true'] at hfree
  obtain ⟨⟨⟨-, hstalled⟩, hscanning⟩, hhalted⟩ := hfree
  simp [Machine.step, hwf, hrst, hstalled, hscanning, hhalted, hslot]

/-- From `s` to `t` an operation of a component has returned: the block is free for the next, and of the controller's
registers those the session is steered by are as they were. -/
structure Completed (s t : State) : Prop where
  free : t.free = true
  cfg : t.cfg = s.cfg
  slot : t.slot = s.slot
  phase : t.scPhase = s.scPhase
  rem : t.rem = s.rem
  mw : t.mw = s.mw
  ready : ∀ c, (s.drv c).inited = true → (t.drv c).inited = true

/-- The operation returns with `P`, or stops where no other can begin. -/
def CompletesOrStops (P : State → Prop) (s : State) (r : Run) : Prop :=
  r.Ends (fun t => Completed s t ∧ P t) fun t => t.free = false

theorem Completed.of_keeps {x : Component} {s t : State} (hfree : s.free = true) (k : Keeps x s t)
    (hbus : ∀ c, (t.drv c).busReq = .none) (hks : t.ksPhase = .idle)
    (hready : ∀ c, (s.drv c).inited = true → (t.drv c).inited = true) : Completed s t := by
  obtain ⟨hrst, -, -, hhalt⟩ := (free_iff s).1 hfree
  obtain ⟨hcfg, hphase⟩ := k.holdsPhase
  exact ⟨(free_iff t).2 ⟨(k.read (·.rst) rfl).trans hrst, hbus, hks, hphase ▸ hhalt⟩, hcfg, k.read State.slot rfl,
    hphase, k.read (·.rem) rfl, k.read (·.mw) rfl, hready⟩

theorem WasReset.not_free {s t : State} (h : WasReset s t) : t.free = false := by simp [State.free, h.rst]

theorem ChannelStopped.not_free {c : Chan} {s t : State} (h : ChannelStopped c s t) : t.free = false := by
  cases h with
  | reset h => exact h.not_free
  | stalled h => simp [State.free, stalled_of_busy h.busy]
  | gaveUp h => simp [State.free, State.halted]

theorem WorksOn.completes {c : Chan} {s : State} {r : Run} (h : WorksOn c .idle s r) (hfree : s.free = true) :
    CompletesOrStops (ChannelDone c .idle s) s r := by
  obtain ⟨-, hbus, hks, -⟩ := (free_iff s).1 hfree
  refine h.mono (fun t ht => ⟨.of_keeps hfree ht.keeps (fun c' => ?_) ((ht.keeps.read (·.ksPhase) rfl).trans hks)
    ht.toChannelWorked.inited_mono, ht⟩) fun _ => ChannelStopped.not_free
  by_cases hc : c' = c
  · subst hc; exact ht.idleBus (hbus c')
  · rw [ht.keeps.otherDrv hc]; exact hbus c'

/-- The scanner and the player leave the drivers of the channels, and so the requests on the buses. -/
theorem Completed.of_keeps_drivers {x : Component} (hx : ∀ c, x ≠ .channel c) {s t : State} (hfree : s.free = true)
    (k : Keeps x s t) (hks : t.ksPhase = .idle) : Completed s t := by
  obtain ⟨-, hbus, -, -⟩ := (free_iff s).1 hfree
  exact .of_keeps hfree k (fun c => by rw [k.drv hx]; exact hbus c) hks fun c hi => by rw [k.drv hx]; exact hi

theorem Scans.completes {v : Nibble} {s : State} {r : Run} (h : Scans v s r) (hfree : s.free = true) :
    CompletesOrStops (fun _ => True) s r := by
  refine h.mono (fun t ht => ⟨.of_keeps_drivers (x := .scanner) nofun hfree ht.keeps ht.phase, trivial⟩) fun t ht => ?_
  cases ht with
  | reset h => exact h.not_free
  | waiting _ hk =>
    have hscanning : t.scanning = true := by simpa [State.scanning] using hk
    simp [State.free, hscanning]

theorem playWord_completesOrStops (w : Byte) {s : State} (hfree : s.free = true) :
    CompletesOrStops (fun _ => True) s (playWord w s) := by
  obtain ⟨-, -, hks, -⟩ := (free_iff s).1 hfree
  refine (playWord_ends w s).mono (fun t ht => ⟨?_, trivial⟩) fun _ => WasReset.not_free
  have hkeeps := ht.1.keeps
  exact .of_keeps_drivers (x := .player) nofun hfree hkeeps ((hkeeps.read (·.ksPhase) rfl).trans hks)

theorem windowSettle_completesOrStops {s : State} (hfree : s.free = true) :
    CompletesOrStops (fun _ => True) s (windowSettle s) := by
  obtain ⟨-, -, hks, -⟩ := (free_iff s).1 hfree
  refine sleep_ends .player (emptyWindow s) _ (fun k hk => ⟨?_, trivial⟩) fun _ => WasReset.not_free
  obtain ⟨hdone, hcfg, hslot, hphase, hrem, hmw, hready⟩ :=
    Completed.of_keeps_drivers (x := .player) (s := emptyWindow s) nofun hfree hk hks
  exact ⟨hdone, hcfg, hslot, hphase, hrem, hmw, hready⟩

/-! ### The walk performs an operation -/

/-- The walk from `s` performs `r`: where `r` returns in a state `t` with `P`, the walk goes on from `go t`; where `r`
stops, the walk stops in the same state. -/
def WalkPerforms (go : State → State) (P : State → Prop) (s : State) (r : Run) : Prop :=
  r.Ends (fun t => Reaches s (go t) ∧ WalksOn (go t) ∧ P t) (Reaches s)

theorem WalkPerforms.andThen {go go' : State → State} {P P' : State → Prop} {s : State} {r : Run} {f : State → Run}
    (h : WalkPerforms go P s r) (hf : ∀ t, WalksOn (go t) → P t → WalkPerforms go' P' (go t) (f t)) :
    WalkPerforms go' P' s (r.andThen f) :=
  Run.Ends.andThen h fun t ⟨hreach, hwalks, hp⟩ =>
    (hf t hwalks hp).mono (fun _ ⟨hnext, hrest⟩ => ⟨hreach.trans hnext, hrest⟩) fun _ => hreach.trans

theorem WalkPerforms.after {go : State → State} {P : State → Prop} {s t : State} {r : Run} (h : Reaches s t)
    (k : WalkPerforms go P t r) : WalkPerforms go P s r :=
  Run.Ends.mono k (fun _ ⟨hreach, hrest⟩ => ⟨h.trans hreach, hrest⟩) fun _ => h.trans

theorem WalkPerforms.mono {go : State → State} {P P' : State → Prop} {s : State} {r : Run}
    (h : WalkPerforms go P s r) (hp : ∀ t, P t → P' t) : WalkPerforms go P' s r :=
  Run.Ends.mono h (fun t ⟨hreach, hwalks, ht⟩ => ⟨hreach, hwalks, hp t ht⟩) fun _ => id

/-- The operation ends with a write of registers, which is the first part of going on. -/
theorem WalkPerforms.thenDone {go g : State → State} {P P' : State → Prop} {s : State} {r : Run}
    (h : WalkPerforms (fun t => go (g t)) P s r) (hp : ∀ t, P t → P' (g t)) :
    WalkPerforms go P' s (r.andThen fun t => .done (g t)) :=
  Run.Ends.andThen h fun t ⟨hreach, hwalks, ht⟩ => ⟨hreach, hwalks, hp t ht⟩

/-- The walk reaches the state that the operation it performs answers. -/
theorem WalkPerforms.reaches {P : State → Prop} {s t : State} {r : Run} (h : WalkPerforms id P s r)
    (ht : r.result = .next t) : Reaches s t :=
  (Run.Ends.result h ht).elim (fun hu => hu.1) id

/-- From `t` to `u` the controller has written registers of its own, and has not halted. -/
structure GoesOn (t u : State) : Prop where
  same : (u.rst, u.drv1, u.drv2, u.ksPhase, u.cfg, u.slot) = (t.rst, t.drv1, t.drv2, t.ksPhase, t.cfg, t.slot)
  running : u.scPhase ≠ .halt

theorem WalksOn.goesOn {t u : State} (hfree : t.free = true) (hwf : t.cfg.wf = true) (hslot : t.slot = none)
    (h : GoesOn t u) : WalksOn u := by
  obtain ⟨hsame, hrunning⟩ := h
  simp only [Prod.mk.injEq] at hsame
  obtain ⟨hrst, h1, h2, hks, hcfg, hslot'⟩ := hsame
  obtain ⟨hrst0, hbus, hidle, -⟩ := (free_iff t).1 hfree
  refine ⟨⟨hcfg ▸ hwf, hrst.trans hrst0, (free_iff u).2 ⟨hrst.trans hrst0, fun c => ?_, hks.trans hidle, hrunning⟩⟩,
    hslot'.trans hslot⟩
  cases c
  · exact (congrArg Driver.busReq h1).trans (hbus .ch1)
  · exact (congrArg Driver.busReq h2).trans (hbus .ch2)

/-- A step of the walk that writes registers of the controller alone. -/
theorem WalksOn.next {s t : State} (h : WalksOn s) (hwalk : walk s = .next t) (hgo : GoesOn s t) :
    Reaches s t ∧ WalksOn t :=
  ⟨.of_step (h.step.trans hwalk), .goesOn h.isOpen.2.2 h.isOpen.1 h.noSlot hgo⟩

/-- A step of the walk that performs `r` and then goes on. -/
theorem WalksOn.performs {go : State → State} {P : State → Prop} {s : State} {r : Run} (h : WalksOn s)
    (hwalk : walk s = whenReturned r.result go) (hr : CompletesOrStops P s r)
    (hgo : ∀ t, Completed s t → GoesOn t (go t)) : WalkPerforms go (fun t => Completed s t ∧ P t) s r := by
  have hstep := h.step.trans hwalk
  cases r with
  | stop t =>
    have hbusy : t.free = false := hr
    exact .of_step (by rw [hstep]; simp [whenReturned, performAfter, hbusy])
  | done t =>
    obtain ⟨hdone, hp⟩ := hr
    refine ⟨.of_step (by rw [hstep]; simp [whenReturned, performAfter, hdone.free]), ?_, hdone, hp⟩
    exact .goesOn hdone.free (hdone.cfg ▸ h.isOpen.1) (hdone.slot.trans h.noSlot) (hgo t hdone)

theorem setSc_goesOn {q : ScPhase} (hq : q ≠ .halt) (t : State) : GoesOn t (setSc q t) := ⟨rfl, hq⟩

/-- A phase of the walk whose operation is on an initialised channel, and the phase after it. -/
theorem WalksOn.performsOn {c : Chan} {q : ScPhase} {s : State} {r : Run} (h : WalksOn s)
    (hi : (s.drv c).inited = true) (hr : WorksOn c .idle s r)
    (hwalk : walk s = whenReturned (ifInitialised c s r) (setSc q)) (hq : q ≠ .halt) :
    WalkPerforms (setSc q) (Completed s) s r := by
  rw [ifInitialised_ready hi] at hwalk
  exact (h.performs hwalk (hr.completes h.isOpen.2.2) fun t _ => setSc_goesOn hq t).mono fun _ ht => ht.1

/-! ### SC.ITERATE -/

/-- Both channels are initialised, and `n` digits are still to be accepted. -/
structure InSession (n : Nat) (s : State) : Prop where
  ready : ∀ c, (s.drv c).inited = true
  rem : s.rem = n

theorem InSession.setSc {n : Nat} {s : State} (h : InSession n s) (q : ScPhase) : InSession n (Machine.setSc q s) :=
  ⟨h.ready, h.rem⟩

theorem InSession.completed {n : Nat} {s t : State} (h : InSession n s) (k : Completed s t) : InSession n t :=
  ⟨fun c => k.ready c (h.ready c), k.rem.trans h.rem⟩

/-- The same from the read of the digit on: `mw` holds a digit's word. -/
structure HasWord (n : Nat) (s : State) : Prop extends InSession n s where
  word : markCount s.mw = 5

theorem HasWord.setSc {n : Nat} {s : State} (h : HasWord n s) (q : ScPhase) : HasWord n (Machine.setSc q s) :=
  ⟨h.toInSession.setSc q, h.word⟩

theorem HasWord.completed {n : Nat} {s t : State} (h : HasWord n s) (k : Completed s t) : HasWord n t :=
  ⟨h.toInSession.completed k, by rw [k.mw]; exact h.word⟩

variable {n : Nat}

/-- From the loop test to the read (45_session_controller.md R208, R210, R211). -/
theorem windowBoundary_walks {s : State} (h : WalksOn s) (hs : InSession n s) (hp : s.scPhase = .check) (hn : n ≠ 0) :
    WalkPerforms (setSc .read) (InSession n) s (windowBoundary s) := by
  have hrem : s.rem ≠ 0 := by rw [hs.rem]; exact hn
  have hcheck : walk s = .next (checkPhase s) := by simp [walk, hp]
  unfold windowBoundary
  split
  · next hcnt =>
    have hfull : checkPhase s = setSc .wclr1 s := by rw [checkPhase, if_neg hrem, if_pos hcnt]
    obtain ⟨hreach, hwalks⟩ := h.next (hcheck.trans (congrArg _ hfull)) (setSc_goesOn (q := .wclr1) nofun s)
    have hclear : ∀ (c : Chan) (p q : ScPhase) (t : State), WalksOn (setSc p t) → InSession n t → q ≠ .halt →
        walk (setSc p t) = whenReturned (ifInitialised c (setSc p t) (clearDisplay c (setSc p t))) (setSc q) →
        WalkPerforms (setSc q) (InSession n) (setSc p t) (clearDisplay c (setSc p t)) := fun c p _ _ ht hst hq hwalk =>
      (ht.performsOn (hst.ready c) (clearDisplay_works _ _) hwalk hq).mono fun _ => (hst.setSc p).completed
    refine .after hreach (((hclear .ch1 .wclr1 .wclr2 s hwalks hs nofun rfl).andThen fun t ht hst =>
      hclear .ch2 .wclr2 .wsettle t ht hst nofun rfl).andThen fun t ht hst => ?_)
    exact (ht.performs rfl (windowSettle_completesOrStops ht.isOpen.2.2) fun u _ => setSc_goesOn (q := .read) nofun
      u).mono fun u hu => (hst.setSc .wsettle).completed hu.1
  · next hcnt =>
    have hread : checkPhase s = setSc .read s := by rw [checkPhase, if_neg hrem, if_neg hcnt]
    obtain ⟨hreach, hwalks⟩ := h.next (hcheck.trans (congrArg _ hread)) (setSc_goesOn (q := .read) nofun s)
    exact ⟨hreach, hwalks, hs⟩

/-- The read; where it waits for a key, so does the walk (45_session_controller.md R212). -/
theorem readPhase_walks {t : State} (h : WalksOn (setSc .read t)) (hs : InSession n t) :
    WalkPerforms (setSc .cipher) (InSession n) (setSc .read t) (readPhase t) := by
  have hread := (readDigit_scans (setSc .read t)).completes h.isOpen.2.2
  have hperforms := h.performs (go := fun u => setSc .cipher (latchDigit u)) rfl hread fun u _ => ⟨rfl, nofun⟩
  exact hperforms.thenDone fun u hu => have hdone := (hs.setSc .read).completed hu.1; ⟨hdone.ready, hdone.rem⟩

/-- The two combinational operations (45_session_controller.md R213). -/
theorem cipherPhase_walks {t : State} (h : WalksOn (setSc .cipher t)) (hs : InSession n t) :
    WalkPerforms (setSc .ch1pos) (HasWord n) (setSc .cipher t) (.done (cipherPhase t)) := by
  obtain ⟨hreach, hwalks⟩ := h.next (t := afterCipher (setSc .cipher t)) (walkEncode_walkCipher h.isOpen.2.2)
    ⟨rfl, nofun⟩
  exact ⟨hreach, hwalks, ⟨hs.ready, hs.rem⟩, markCount_morseRom (encryptDigit_le _ _ _)⟩

/-- A phase with the digit's word in `mw` whose operation is on a channel. -/
theorem wordPhase_walks {c : Chan} {p q : ScPhase} {t : State} {r : Run} (h : WalksOn (setSc p t)) (hs : HasWord n t)
    (hr : WorksOn c .idle (setSc p t) r)
    (hwalk : walk (setSc p t) = whenReturned (ifInitialised c (setSc p t) r) (setSc q)) (hq : q ≠ .halt) :
    WalkPerforms (setSc q) (HasWord n) (setSc p t) r :=
  (h.performsOn (hs.ready c) hr hwalk hq).mono fun _ => (hs.setSc p).completed

theorem positionPhase_walks {t : State} (h : WalksOn (setSc .ch1pos t)) (hs : HasWord n t) :
    WalkPerforms (setSc .ch1wr) (HasWord n) (setSc .ch1pos t) (positionPhase t) := by
  have hwalk : walk (setSc .ch1pos t) =
    whenReturned (exec (positionInstr (setSc .ch1pos t)) (setSc .ch1pos t)) (setSc .ch1wr) := rfl
  unfold positionPhase
  unfold positionInstr at hwalk
  dsimp only
  split
  · next hcnt =>
    rw [if_pos hcnt] at hwalk
    exact wordPhase_walks h hs (clearDisplay_works .ch1 _) hwalk nofun
  · next hcnt =>
    rw [if_neg hcnt] at hwalk
    exact wordPhase_walks h hs (moveCursor_works .ch1 _ _) hwalk nofun

/-- `u` where mark character `i` is written next (45_session_controller.md R217). -/
def withMark (i : Nat) (u : State) : State := { u with scMi := BitVec.ofNat 3 i }

theorem encDigitPhase_walks {t : State} (h : WalksOn (setSc .ch2dig t)) (hs : HasWord n t) :
    WalkPerforms (fun u => withMark 0 (setSc .ch2mrk u)) (HasWord n) (setSc .ch2dig t) (encDigitPhase t) := by
  have hwalk : walk (setSc .ch2dig t) = whenReturned (ifInitialised .ch2 (setSc .ch2dig t) (encDigitPhase t))
    fun u => withMark 0 (setSc .ch2mrk u) := rfl
  rw [ifInitialised_ready (c := .ch2) (s := setSc .ch2dig t) (hs.ready .ch2)] at hwalk
  exact (h.performs hwalk ((writeChar_works .ch2 _ _).completes h.isOpen.2.2) fun u _ => ⟨rfl, nofun⟩).mono
    fun u hu => (hs.setSc .ch2dig).completed hu.1

theorem afterMark_of_next {i : Nat} {t : State} (hi : t.scMi = BitVec.ofNat 3 i) (hlt : i + 1 < 5)
    (hword : markCount t.mw = 5) : afterMark t = withMark (i + 1) t := by
  have hindex : (BitVec.ofNat 3 i).toNat = i := by simp; omega
  rw [afterMark, hi, hindex, hword, if_pos hlt, withMark, BitVec.ofNat_add]
  rfl

theorem afterMark_of_last {t : State} (hi : t.scMi = 4) (hword : markCount t.mw = 5) :
    afterMark t = setSc .play t := by
  rw [afterMark, hi, hword]
  rfl

/-- One mark character, one step of the walk (45_session_controller.md R217). -/
theorem writeMark_walks {i : Nat} (hi : i < 5) {u : State} (hp : u.scPhase = .ch2mrk) (h : WalksOn (withMark i u))
    (hs : HasWord n u) :
    WalkPerforms afterMark (fun t => HasWord n t ∧ t.scMi = BitVec.ofNat 3 i ∧ t.scPhase = .ch2mrk) (withMark i u)
      (writeMark i u) := by
  have hindex : (withMark i u).scMi.toNat = i := by
    show (BitVec.ofNat 3 i).toNat = i
    simp
    omega
  have hlt : i < markCount (withMark i u).mw := hi.trans_eq hs.word.symm
  have hwalk : walk (withMark i u) = whenReturned (ifInitialised .ch2 (withMark i u) (writeMark i u)) afterMark := by
    have hphase : (withMark i u).scPhase = .ch2mrk := hp
    simp only [walk, hphase, walkMark, hindex, if_pos hlt]
    rfl
  rw [ifInitialised_ready (c := .ch2) (s := withMark i u) (hs.ready .ch2)] at hwalk
  have hgo : ∀ t, Completed (withMark i u) t → GoesOn t (afterMark t) := fun t ht => by
    unfold afterMark
    split
    · exact ⟨rfl, fun hh => by cases (ht.phase.trans hp).symm.trans hh⟩
    · exact setSc_goesOn (q := .play) nofun t
  exact (h.performs hwalk ((writeChar_works .ch2 _ _).completes h.isOpen.2.2) hgo).mono fun t ⟨hdone, hworked⟩ =>
    ⟨HasWord.completed (s := withMark i u) ⟨⟨hs.ready, hs.rem⟩, hs.word⟩ hdone, hworked.keeps.read (·.scMi) rfl,
      hdone.phase.trans hp⟩

/-- The mark characters from mark `i` on, the last one the fifth (45_session_controller.md R217). -/
theorem writeMarks_walks {m i : Nat} (hm : i + m = 4) {u : State} (hp : u.scPhase = .ch2mrk)
    (h : WalksOn (withMark i u)) (hs : HasWord n u) :
    WalkPerforms (setSc .play) (HasWord n) (withMark i u) (writeMarks (m + 1) i u) := by
  induction m generalizing i u with
  | zero =>
    obtain rfl : i = 4 := hm
    refine (writeMark_walks (by omega) hp h hs).andThen fun t ht ⟨hst, hi, _⟩ => ?_
    rw [afterMark_of_last hi hst.word] at ht ⊢
    exact ⟨.refl _, ht, hst⟩
  | succ m ih =>
    refine (writeMark_walks (by omega) hp h hs).andThen fun t ht ⟨hst, hi, hph⟩ => ?_
    rw [afterMark_of_next hi (by omega) hst.word] at ht ⊢
    exact ih (by omega) hph ht hst

theorem marksPhase_walks {t : State} (h : WalksOn (withMark 0 (setSc .ch2mrk t))) (hs : HasWord n t) :
    WalkPerforms (setSc .play) (HasWord n) (withMark 0 (setSc .ch2mrk t)) (marksPhase t) := by
  rw [marksPhase, hs.word]
  exact writeMarks_walks (m := 4) rfl rfl h (hs.setSc .ch2mrk)

/-- The play of the digit's word (45_session_controller.md R216). -/
theorem playPhase_walks {t : State} (h : WalksOn (setSc .play t)) (hs : HasWord n t) :
    WalkPerforms (setSc .adv) (HasWord n) (setSc .play t) (playPhase t) := by
  have hwalk : walk (setSc .play t) = whenReturned (exec (.lmpPlay t.mw) (setSc .play t)) (setSc .adv) := rfl
  rw [exec_lmpPlay hs.word.le] at hwalk
  exact (h.performs hwalk (playWord_completesOrStops _ h.isOpen.2.2) fun u _ => setSc_goesOn (q := .adv) nofun
    u).mono fun u hu => (hs.setSc .play).completed hu.1

/-- An iteration is over: the session stands at its loop test, with one digit less to accept. -/
structure AtCheck (n : Nat) (s : State) : Prop extends InSession n s where
  phase : s.scPhase = .check

/-- From the loop test the walk performs one iteration (45_session_controller.md R206, R209). -/
theorem iterateSession_walks {s : State} (h : WalksOn s) (hs : AtCheck (n + 1) s) :
    WalkPerforms id (AtCheck n) s (iterateSession s) := by
  refine (((((((((windowBoundary_walks h hs.toInSession hs.phase n.succ_ne_zero).andThen
    fun t ht hst => readPhase_walks ht hst).andThen
    fun t ht hst => cipherPhase_walks ht hst).andThen
    fun t ht hst => positionPhase_walks ht hst).andThen
    fun t ht hst => wordPhase_walks ht hst (writeChar_works .ch1 _ _) rfl nofun).andThen
    fun t ht hst => wordPhase_walks ht hst (clearDisplay_works .ch2 _) rfl nofun).andThen
    fun t ht hst => encDigitPhase_walks ht hst).andThen
    fun t ht hst => marksPhase_walks ht hst).andThen
    fun t ht hst => playPhase_walks ht hst).andThen fun t ht hst => ?_
  obtain ⟨hreach, hwalks⟩ := ht.next (t := setSc .check (advanceCounts (setSc .adv t))) rfl ⟨rfl, nofun⟩
  exact ⟨hreach, hwalks, ⟨hst.ready, congrArg (· - 1) hst.rem⟩, rfl⟩

theorem exec_scIterate {s : State} (hi1 : s.drv1.inited = true) (hi2 : s.drv2.inited = true) :
    exec .scIterate s = (iterateSession s).result := by
  simp [exec, execScIterate, ifSessionOpen, ifInitialised, hi1, hi2]

/-- Settles O50: the phases of an iteration, one after the other. -/
theorem walkPerformsIteration : Obligations.WalkPerformsIteration := by
  intro s t ho hslot hi1 hi2 hp hrem h
  obtain ⟨n, hn⟩ := Nat.exists_eq_succ_of_ne_zero hrem
  rw [exec_scIterate hi1 hi2] at h
  exact (iterateSession_walks ⟨ho, hslot⟩ ⟨⟨fun c => by cases c <;> assumption, hn⟩, hp⟩).reaches h

/-! ### SC.RUN -/

/-- DCD.INITIALIZE in its phase, on a fresh channel: it returns with the channel initialised and the other as it was
(45_session_controller.md R207). -/
theorem initPhase_walks {c : Chan} {p q : ScPhase} {t : State} (h : WalksOn (setSc p t))
    (hi : (t.drv c).inited = false) (hl : (t.line c).started = false)
    (hwalk : walk (setSc p t) = whenReturned (ifUninitialised c (setSc p t) (initDisplay c (setSc p t)).result)
      (setSc q)) (hq : q ≠ .halt) :
    WalkPerforms (setSc q) (fun u => Completed (setSc p t) u ∧ (u.drv c).inited = true ∧
      ∀ c', c' ≠ c → u.drv c' = t.drv c' ∧ u.line c' = t.line c') (setSc p t) (initDisplay c (setSc p t)) := by
  rw [ifUninitialised_fresh (s := setSc p t) hi hl] at hwalk
  have hdone := (initDisplay_works c (setSc p t)).completes h.isOpen.2.2
  have hinited : ∀ u, initDisplay c (setSc p t) = .done u → (u.drv c).inited = true := fun _ => initDisplay_inited
  have hreturns : CompletesOrStops (fun u => (u.drv c).inited = true ∧
      ∀ c', c' ≠ c → u.drv c' = t.drv c' ∧ u.line c' = t.line c') (setSc p t) (initDisplay c (setSc p t)) := by
    cases hr : initDisplay c (setSc p t) with
    | stop u => rw [hr] at hdone; exact hdone
    | done u =>
      rw [hr] at hdone
      obtain ⟨hcompleted, hworked⟩ := hdone
      exact ⟨hcompleted, hinited u hr, fun c' hc => ⟨hworked.keeps.otherDrv hc, hworked.keeps.otherLine hc⟩⟩
  exact h.performs hwalk hreturns fun u _ => setSc_goesOn hq u

/-- From reset the walk performs SC.START (45_session_controller.md R206, R207). -/
theorem startSession_walks {s : State} (h : WalksOn s) (hp : s.scPhase = .reset)
    (hi : ∀ c, (s.drv c).inited = false) (hl : ∀ c, (s.line c).started = false) :
    WalkPerforms id (AtCheck s.rem) s (startSession s) := by
  have hwalk : walk s = .next (setSc .init1 s) := by simp [walk, hp]
  obtain ⟨hreach, hwalks⟩ := h.next hwalk (setSc_goesOn (q := .init1) nofun s)
  have h1 := initPhase_walks (q := .init2) hwalks (hi .ch1) (hl .ch1) rfl nofun
  have h2 : WalkPerforms (setSc .check) (InSession s.rem) s ((initDisplay .ch1 (setSc .init1 s)).andThen fun t =>
      initDisplay .ch2 (setSc .init2 t)) := by
    refine (WalkPerforms.after hreach h1).andThen fun t ht ⟨hdone, hinited, hother⟩ => ?_
    obtain ⟨hdrv, hline⟩ := hother .ch2 (by decide)
    refine (initPhase_walks ht (by rw [hdrv]; exact hi .ch2) (by rw [hline]; exact hl .ch2) rfl nofun).mono
      fun u ⟨hdone', hinited', _⟩ => ⟨fun c => ?_, hdone'.rem.trans hdone.rem⟩
    cases c
    · exact hdone'.ready .ch1 hinited
    · exact hinited'
  exact h2.thenDone (go := id) (g := setSc .check) fun t ht => ⟨ht.setSc .check, rfl⟩

/-- From the loop test the walk performs all iterations (45_session_controller.md R208). -/
theorem iterations_walks {s : State} (h : WalksOn s) (hs : AtCheck n s) :
    WalkPerforms id (AtCheck 0) s (iterations n s) := by
  induction n generalizing s with
  | zero => exact ⟨.refl s, h, hs⟩
  | succ n ih =>
    have hrem : s.rem ≠ 0 := by rw [hs.rem]; exact n.succ_ne_zero
    rw [iterations, if_neg hrem]
    exact (iterateSession_walks h hs).andThen fun t ht hst => ih ht hst

/-- A step of the walk that performs `r` and then `f`. -/
theorem WalksOn.performAfter_reaches {P : State → Prop} {s t : State} {r : Run} {f : State → Run} (h : WalksOn s)
    (hwalk : walk s = performAfter r.result f) (hr : CompletesOrStops P s r) (ht : (r.andThen f).result = .next t) :
    Reaches s t := by
  refine .of_step (h.step.trans (hwalk.trans ?_))
  cases r with
  | stop u =>
    have hbusy : u.free = false := hr
    simpa [performAfter, hbusy] using ht
  | done u =>
    obtain ⟨hdone, -⟩ := hr
    simpa [performAfter, hdone.free] using ht

/-- From the loop test with no digit left to accept the walk performs SC.TERMINATE (45_session_controller.md R221). -/
theorem terminateSession_walks {s t : State} (h : WalksOn s) (hs : AtCheck 0 s)
    (ht : (terminateSession s).result = .next t) : Reaches s t := by
  have hwalk : walk s = .next (setSc .off1 s) := by
    have hphase := hs.phase
    simp [walk, hphase, checkPhase, hs.rem]
  obtain ⟨hreach, hwalks⟩ := h.next hwalk (setSc_goesOn (q := .off1) nofun s)
  have hoff1 : WalkPerforms (setSc .off2) (InSession 0) (setSc .off1 s) (displayOff .ch1 (setSc .off1 s)) :=
    (hwalks.performsOn (c := .ch1) (hs.ready .ch1) (writeCommand_works _ _ _) rfl nofun).mono fun _ =>
      (hs.toInSession.setSc .off1).completed
  rw [terminateSession, Run.andThen_assoc] at ht
  refine hreach.trans ?_
  cases hr : displayOff .ch1 (setSc .off1 s) with
  | stop u =>
    rw [hr] at ht hoff1
    cases ht
    exact hoff1
  | done u =>
    rw [hr] at ht hoff1
    obtain ⟨hreach', hwalks', hst⟩ := hoff1
    have hwalk' : walk (setSc .off2 u) =
      performAfter (ifInitialised .ch2 (setSc .off2 u) (displayOff .ch2 (setSc .off2 u))) haltDone := rfl
    rw [ifInitialised_ready (c := .ch2) (s := setSc .off2 u) (hst.ready .ch2)] at hwalk'
    exact hreach'.trans
      (hwalks'.performAfter_reaches hwalk' ((writeCommand_works .ch2 _ _).completes hwalks'.isOpen.2.2) ht)

/-- From reset the walk performs the whole run. -/
theorem runSession_walks {s t : State} (h : WalksOn s) (hp : s.scPhase = .reset)
    (hi : ∀ c, (s.drv c).inited = false) (hl : ∀ c, (s.line c).started = false)
    (ht : (runSession s).result = .next t) : Reaches s t := by
  have hloop : WalkPerforms id (AtCheck 0) s ((startSession s).andThen fun u => iterations u.rem u) :=
    (startSession_walks h hp hi hl).andThen fun u hu hst => by
      rw [hst.rem]
      exact iterations_walks hu hst
  rw [runSession] at ht
  cases hr : (startSession s).andThen fun u => iterations u.rem u with
  | stop u =>
    rw [hr] at ht hloop
    cases ht
    exact hloop
  | done u =>
    rw [hr] at ht hloop
    obtain ⟨hreach, hwalks, hst⟩ := hloop
    exact hreach.trans (terminateSession_walks hwalks hst ht)

/-- Both channels are as DCD.INITIALIZE needs them (43_display_channel_driver.md R170). -/
theorem exec_scRun {s : State} (hi1 : s.drv1.inited = false) (hi2 : s.drv2.inited = false)
    (hs1 : s.line1.started = false) (hs2 : s.line2.started = false) : exec .scRun s = (runSession s).result := by
  simp only [exec, execScRun, ifSessionNew]
  rw [ifUninitialised_fresh (c := .ch1) hi1 hs1, ifUninitialised_fresh (c := .ch2) hi2 hs2]

/-- Settles O51: the block after reset is at the start of its walk. -/
theorem walkPerformsRun : Obligations.WalkPerformsRun := by
  intro p env t hwf hrst h1 h2 h
  have hfree : (State.initial p env).free = true := (free_iff _).2 ⟨hrst, fun c => by cases c <;> rfl, rfl, nofun⟩
  exact runSession_walks ⟨⟨hwf, hrst, hfree⟩, rfl⟩ rfl (fun c => by cases c <;> rfl)
    (fun c => by cases c <;> assumption) ((exec_scRun rfl rfl h1 h2).symm.trans h)

end Sys2Proof.Machine
end

section
/-! One iteration when its ready-waits are answered and its read captures a sample (45_session_controller.md R209 to
R218). What the phases do on a display channel is `channelAfter`; the controller's own registers commute with it, so the
phases on one channel are one operation on it. -/

namespace Sys2Proof.Machine

open Sys2Proof.Config

/-! ### The controller's registers and a channel's work -/

theorem channelAfter_setSc (c : Chan) (n : Nat) (evs ticks d v) (q : ScPhase) (s : State) :
    channelAfter c n evs ticks d v (setSc q s) = setSc q (channelAfter c n evs ticks d v s) := by cases c <;> rfl

theorem channelAfter_withMark (c : Chan) (n : Nat) (evs ticks d v) (i : Nat) (s : State) :
    channelAfter c n evs ticks d v (withMark i s) = withMark i (channelAfter c n evs ticks d v s) := by cases c <;> rfl

theorem sleptLast_setSc (t : Nat) (q : ScPhase) (s : State) : sleptLast t (setSc q s) = setSc q (sleptLast t s) := rfl

theorem sleptLast_withMark (t : Nat) (i : Nat) (s : State) : sleptLast t (withMark i s) = withMark i (sleptLast t s) :=
  rfl

theorem setSc_setSc (p q : ScPhase) (s : State) : setSc q (setSc p s) = setSc q s := rfl

theorem withMark_withMark (i j : Nat) (s : State) : withMark j (withMark i s) = withMark j s := rfl

@[simp] theorem withMark_cfg (i : Nat) (s : State) : (withMark i s).cfg = s.cfg := rfl
@[simp] theorem withMark_rstIn (i : Nat) (s : State) : (withMark i s).rstIn = s.rstIn := rfl
@[simp] theorem withMark_mw (i : Nat) (s : State) : (withMark i s).mw = s.mw := rfl
@[simp] theorem sleptLast_mw (t : Nat) (s : State) : (sleptLast t s).mw = s.mw := rfl
@[simp] theorem channelAfter_mw (c : Chan) (n : Nat) (evs ticks d v) (s : State) :
    (channelAfter c n evs ticks d v s).mw = s.mw := by cases c <;> rfl

@[simp] theorem withMark_answers (i : Nat) (s : State) (c : Chan) (n : Nat) :
    (withMark i s).answers c n = s.answers c n := by cases c <;> rfl

theorem answers_channelAfter_other {c c' : Chan} (hc : c' ≠ c) (n m : Nat) (evs ticks d v) (s : State) :
    (channelAfter c n evs ticks d v s).answers c' m = s.answers c' m := by
  cases c <;> cases c'
  · exact absurd rfl hc
  · rfl
  · rfl
  · exact absurd rfl hc

/-! ### The mark characters -/

/-- The registers of a driver after `n` characters, `b` the last of them. -/
def charsSent (p : Params) (n : Nat) (b : Byte) (d : Driver) : Driver :=
  { transferred p true b d with cur := d.cur + BitVec.ofNat 3 n }

/-- The view after characters. -/
def View.characters (bs : List Byte) (v : View) : View := bs.foldl (fun x b => x.character b) v

/-- The characters of the marks `i` to `i + n - 1` of a word (45_session_controller.md R217). -/
def markChars (w : Byte) (i n : Nat) : List Byte := (List.range' i n).map fun j => markChar (markAt w j)

theorem markChars_add (w : Byte) (i m n : Nat) : markChars w i (m + n) = markChars w i m ++ markChars w (i + m) n := by
  simp [markChars, ← List.range'_append_1]

theorem charsSent_charsSent (p : Params) (m n : Nat) (b b' : Byte) (d : Driver) :
    charsSent p n b' (charsSent p m b d) = charsSent p (m + n) b' d := by
  simp [charsSent, transferred, BitVec.ofNat_add, BitVec.add_assoc]

/-- One mark character when the flag answers (43_display_channel_driver.md R176). -/
theorem writeMark_answered (i : Nat) (s : State) (h : s.answers .ch2 4 = true) (hr : s.rstIn = none) :
    writeMark i s = .done (withMark i (sleptLast s.cfg.tStep (channelAfter .ch2 4
      ((markChars s.mw i 1).flatMap (byteEvents s.cfg .ch2 true)) (4 * s.cfg.tStep)
      (charsSent s.cfg 1 (markChar (markAt s.mw i))) (View.characters (markChars s.mw i 1)) s))) := by
  have hchar := writeChar_answered .ch2 (markChar (markAt s.mw i)) (withMark i s) (by simpa using h) hr
  simp only [afterTransfer, withMark_cfg, channelAfter_withMark, sleptLast_withMark] at hchar
  rw [writeMark]
  refine hchar.trans ?_
  simp only [markChars, List.range'_one, List.map_cons, List.map_nil, List.flatMap_cons, List.flatMap_nil,
    List.append_nil]
  rfl

/-- At least one mark character when the flag answers (45_session_controller.md R217). -/
theorem writeMarks_answered (n i : Nat) (s : State) (h : s.answers .ch2 (4 * (n + 1)) = true) (hr : s.rstIn = none) :
    writeMarks (n + 1) i s = .done (withMark (i + n) (sleptLast s.cfg.tStep (channelAfter .ch2 (4 * (n + 1))
      ((markChars s.mw i (n + 1)).flatMap (byteEvents s.cfg .ch2 true)) (4 * (n + 1) * s.cfg.tStep)
      (charsSent s.cfg (n + 1) (markChar (markAt s.mw (i + n)))) (View.characters (markChars s.mw i (n + 1))) s))) := by
  induction n generalizing i s with
  | zero => rw [writeMarks, writeMark_answered i s h hr, Run.done_andThen, writeMarks]; rfl
  | succ n ih =>
    have hwaits : 4 * (n + 1 + 1) = 4 + 4 * (n + 1) := by omega
    rw [hwaits] at h ⊢
    rw [writeMarks, writeMark_answered i s (answers_le .ch2 4 _ s h) hr, Run.done_andThen, ih]
    · simp only [withMark_cfg, withMark_mw, sleptLast_mw, channelAfter_mw, sleptLast_cfg, channelAfter_cfg,
        channelAfter_withMark, channelAfter_sleptLast, channelAfter_channelAfter, sleptLast_withMark,
        sleptLast_sleptLast, withMark_withMark]
      rw [Nat.add_comm (n + 1) 1, markChars_add s.mw i 1, List.flatMap_append, ← Nat.add_mul, Nat.add_assoc i 1 n,
        Nat.add_comm n 1]
      have hview : (fun v => View.characters (markChars s.mw (i + 1) (1 + n))
          (View.characters (markChars s.mw i 1) v)) =
          View.characters (markChars s.mw i 1 ++ markChars s.mw (i + 1) (1 + n)) :=
        funext fun v => (List.foldl_append ..).symm
      have hdrv : (fun d => charsSent s.cfg (1 + n) (markChar (markAt s.mw (i + (1 + n))))
          (charsSent s.cfg 1 (markChar (markAt s.mw i)) d)) =
          charsSent s.cfg (1 + (1 + n)) (markChar (markAt s.mw (i + (1 + n)))) :=
        funext fun d => charsSent_charsSent ..
      rw [hview, hdrv]
    · rw [withMark_answers, answers_sleptLast]
      exact answers_channelAfter .ch2 4 _ _ _ _ _ s h
    · simpa using hr

/-! ### The phases on each display -/

/-- The register that follows the cursor of display 1 when it is moved to the place of count `k`
(45_session_controller.md R214). In a run `k` is at most 3, and this is `k`. -/
def cursorFor (k : BitVec 3) : BitVec 3 := (k.setWidth 2).setWidth 3

theorem cursorFor_of_le {k : BitVec 3} (h : k.toNat ≤ 3) : cursorFor k = k := by
  revert k
  decide

theorem cursorFor_eq_zero {k : BitVec 3} (h : k ≠ 4) : cursorFor k = 0 ↔ k = 0 := by
  revert k
  decide

/-- The ready-waits of channel 1 from the positioning of count `k` on. -/
def rawWaits (k : BitVec 3) : Nat := (if k = 0 then 8 else 4) + 4

/-- The time on channel 1 besides the waits. -/
def rawTicks (p : Params) (k : BitVec 3) : Nat := if k = 0 then 12 * p.tStep + p.tClearSettle else 8 * p.tStep

/-- DCD.CLEAR in a phase of the controller. -/
theorem clearDisplay_inPhase (c : Chan) (q : ScPhase) {s : State} (hr : s.rstIn = none) (h : s.answers c 8 = true) :
    clearDisplay c (setSc q s) = .done (setSc q (afterClear c s)) := by
  rw [clearDisplay_answered c (setSc q s) (by simpa using h) hr]
  simp only [afterClear, setSc_cfg, channelAfter_setSc, sleptLast_setSc]

/-- A character in a phase of the controller, after other work on the same channel. -/
theorem writeChar_after {c : Chan} {m : Nat} (evs ticks d v t) (p q : ScPhase) (b : Byte) {s : State}
    (hr : s.rstIn = none) (h : s.answers c (m + 4) = true) :
    writeChar c b (setSc q (setSc p (sleptLast t (channelAfter c m evs ticks d v s)))) =
      .done (setSc q (sleptLast s.cfg.tStep (channelAfter c (m + 4) (evs ++ byteEvents s.cfg c true b)
        (ticks + 4 * s.cfg.tStep) (fun x => charsSent s.cfg 1 b (d x)) (fun x => (v x).character b) s))) := by
  rw [writeChar_answered c b _ _ (by simpa using hr)]
  · simp only [afterTransfer, setSc_cfg, sleptLast_cfg, channelAfter_cfg, channelAfter_setSc, sleptLast_setSc,
      setSc_setSc, channelAfter_sleptLast, channelAfter_channelAfter, sleptLast_sleptLast]
    rfl
  · rw [setSc_answers, setSc_answers, answers_sleptLast]
    exact answers_channelAfter c m 4 _ _ _ _ s h

/-- The registers after the positioning and the raw digit on display 1 (45_session_controller.md R214). -/
def afterRawDigit (s : State) : State :=
  setSc .ch1wr (sleptLast s.cfg.tStep (channelAfter .ch1 (rawWaits s.cnt)
    (positionEvents s.cfg s.cnt ++ byteEvents s.cfg .ch1 true (digitChar s.dig)) (rawTicks s.cfg s.cnt)
    (fun d => { transferred s.cfg true (digitChar s.dig) d with cur := cursorFor s.cnt + 1 })
    (rawView (cursorFor s.cnt) s.dig) s))

/-- The positioning and the raw digit are one operation on channel 1 (45_session_controller.md R214). -/
theorem rawDigit_answered {s : State} (hwf : s.cfg.wf = true) (hr : s.rstIn = none) (hk : s.cnt ≠ 4)
    (h : s.answers .ch1 (rawWaits s.cnt) = true) :
    (positionPhase s).andThen rawDigitPhase = .done (afterRawDigit s) := by
  unfold afterRawDigit
  have hzero := cursorFor_eq_zero hk
  by_cases hcnt : s.cnt = 0
  · have hwaits : rawWaits s.cnt = 8 + 4 := by rw [rawWaits, if_pos hcnt]
    rw [hwaits] at h ⊢
    have hposition : positionPhase s = .done (setSc .ch1pos (afterClear .ch1 s)) :=
      (if_pos hcnt).trans (clearDisplay_inPhase .ch1 .ch1pos hr (answers_le .ch1 8 4 s h))
    have hticks : rawTicks s.cfg s.cnt = 8 * s.cfg.tStep + s.cfg.tClearSettle + 4 * s.cfg.tStep := by
      rw [rawTicks, if_pos hcnt]; omega
    have hview : rawView (cursorFor s.cnt) s.dig = fun v => v.cleared.character (digitChar s.dig) := by
      funext v; rw [rawView, if_pos (hzero.2 hcnt), hzero.2 hcnt]; rfl
    rw [hposition, Run.done_andThen, rawDigitPhase, afterClear, writeChar_after _ _ _ _ _ _ _ _ hr h, hticks, hview,
      positionEvents, if_pos hcnt, hzero.2 hcnt]
    rfl
  · have hwaits : rawWaits s.cnt = 4 + 4 := by rw [rawWaits, if_neg hcnt]
    rw [hwaits] at h ⊢
    have hposition : positionPhase s = .done (setSc .ch1pos (afterTransfer .ch1 false
        (cursorCommand s.cfg (s.cnt.setWidth 2)) (fun _ => cursorFor s.cnt)
        (fun v => { v with vcur := (s.cnt.setWidth 2).toNat }) s)) := by
      refine (if_neg hcnt).trans ((moveCursor_answered .ch1 (s.cnt.setWidth 2) (setSc .ch1pos s)
        (by simpa using answers_le .ch1 4 4 s h) hr).trans ?_)
      rw [setSc_cfg, funext (View.command_setCursor hwf _)]
      simp only [afterTransfer, setSc_cfg, channelAfter_setSc, sleptLast_setSc]
      rfl
    have hticks : rawTicks s.cfg s.cnt = 4 * s.cfg.tStep + 4 * s.cfg.tStep := by
      rw [rawTicks, if_neg hcnt]; omega
    have hview : rawView (cursorFor s.cnt) s.dig = fun v =>
        View.character (digitChar s.dig) { v with vcur := (s.cnt.setWidth 2).toNat } := by
      have hplace : (cursorFor s.cnt).toNat = (s.cnt.setWidth 2).toNat := by simp [cursorFor]; omega
      funext v
      rw [rawView, if_neg (fun hz => hcnt (hzero.1 hz)), hplace]
      rfl
    rw [hposition, Run.done_andThen, rawDigitPhase, afterTransfer, writeChar_after _ _ _ _ _ _ _ _ hr h, hticks, hview,
      positionEvents, if_neg hcnt]
    rfl

/-- The registers of display 2's driver after an iteration: the last mark is in them, and six characters stand. -/
def encDriver (p : Params) (w : Byte) (d : Driver) : Driver :=
  { transferred p true (markChar (markAt w 4)) d with cur := 6 }

/-- The registers after the encrypted digit and its marks on display 2 (45_session_controller.md R215, R217). -/
def afterEncDigit (s : State) : State :=
  withMark 4 (setSc .ch2mrk (sleptLast s.cfg.tStep (channelAfter .ch2 32
    (clearEvents s.cfg .ch2 ++ byteEvents s.cfg .ch2 true (digitChar s.enc) ++ markCharEvents s.cfg s.mw)
    (32 * s.cfg.tStep + s.cfg.tClearSettle) (encDriver s.cfg s.mw) (encView s.enc) s)))

/-- The clear, the encrypted digit and its five marks are one operation on channel 2 (45_session_controller.md R215,
R217). -/
theorem encDigit_answered {s : State} (hr : s.rstIn = none) (hmw : s.mw = morseRom s.enc) (he : s.enc.toNat ≤ 9)
    (h : s.answers .ch2 32 = true) :
    ((clearPhase s).andThen encDigitPhase).andThen marksPhase = .done (afterEncDigit s) := by
  unfold afterEncDigit
  have hword : markCount s.mw = 5 := by rw [hmw]; exact markCount_morseRom he
  have hmarks : markCharEvents s.cfg s.mw = (markChars s.mw 0 5).flatMap (byteEvents s.cfg .ch2 true) := by
    simp [markCharEvents, marksOf, hword, markChars, List.flatMap_map, List.range_eq_range']
  have hticks : 8 * s.cfg.tStep + s.cfg.tClearSettle + 4 * s.cfg.tStep + 20 * s.cfg.tStep =
      32 * s.cfg.tStep + s.cfg.tClearSettle := by omega
  rw [clearPhase, clearDisplay_inPhase .ch2 .ch2clr hr (answers_le .ch2 8 24 s h), Run.done_andThen, encDigitPhase,
    afterClear, writeChar_after _ _ _ _ _ _ _ _ hr (answers_le .ch2 12 20 s h), Run.done_andThen, marksPhase]
  simp only [setSc_mw, sleptLast_mw, channelAfter_mw, hword]
  rw [writeMarks_answered 4 0]
  · simp only [setSc_mw, setSc_cfg, sleptLast_mw, sleptLast_cfg, channelAfter_mw, channelAfter_cfg, channelAfter_setSc,
      sleptLast_setSc, setSc_setSc, channelAfter_sleptLast, channelAfter_channelAfter, sleptLast_sleptLast, hmarks,
      ← hticks]
    rw [hmw]
    rfl
  · rw [setSc_answers, setSc_answers, answers_sleptLast]
    exact answers_channelAfter .ch2 12 20 _ _ _ _ s h
  · simpa using hr

/-! ### The read -/

/-- A read that captures returns (40_keypad_scanner.md R134). -/
theorem readDigit_completes {s : State} {n : Nat} {c : Nibble} {rest : List Nibble} (hr : s.rstIn = none)
    (h : s.captures n c rest) : readDigit s = .done (afterScan n c rest s) := by
  have hresult : (readDigit s).result = .next (afterScan n c rest s) := by
    rcases h with hlisted | ⟨hheld, rfl⟩
    · exact readDigitCaptures s n c rest hr hlisted
    · exact heldKeyIsCaptured s n c hr hheld
  have hscans := readDigit_scans s
  cases hread : readDigit s with
  | done t => rw [hread] at hresult; cases hresult; rfl
  | stop t =>
    rw [hread] at hresult hscans
    cases hresult
    cases hscans with
    | reset hreset => have hcause := hreset.cause; rw [hr] at hcause; cases hcause
    | waiting _ hk => exact absurd rfl hk

/-! ### The iteration -/

/-- The state an iteration leaves, whatever the count: that of `afterIteration`, but that the cursor of display 1 goes
where the cursor command takes it. -/
def iterated (n : Nat) (c : Nibble) (rest : List Nibble) (s : State) : State :=
  let t := afterIteration n c rest s
  let k := cursorFor (countAtRead s.cnt)
  { t with
    drv1 := { t.drv1 with cur := k + 1 }
    line1 := { t.line1 with view := rawView k t.dig (if s.cnt = 4 then s.line1.view.cleared else s.line1.view) } }

theorem iterated_of_le {n : Nat} {c : Nibble} {rest : List Nibble} {s : State} (h : s.cnt.toNat ≤ 4) :
    iterated n c rest s = afterIteration n c rest s := by
  have hk : cursorFor (countAtRead s.cnt) = countAtRead s.cnt := by
    refine cursorFor_of_le ?_
    revert h
    generalize s.cnt = k
    revert k
    decide
  rw [iterated, hk]
  rfl

/-- From the read on, the iteration of a digit whose window is not full (45_session_controller.md R212 to R218). -/
def digitSession (s : State) : Run :=
  (((((((readPhase s).andThen fun t => .done (cipherPhase t)).andThen positionPhase).andThen rawDigitPhase).andThen
    fun t => ((clearPhase t).andThen encDigitPhase).andThen marksPhase)).andThen playPhase).andThen fun t =>
      .done (setSc .check (advanceCounts (setSc .adv t)))

theorem iterateSession_eq (s : State) : iterateSession s = (windowBoundary s).andThen digitSession := by
  have hdigit : digitSession = fun t => digitSession t := rfl
  rw [hdigit]
  simp only [iterateSession, digitSession, Run.andThen_assoc]

/-- The registers after the read and the two combinational operations. -/
def afterCipherPhase (n : Nat) (c : Nibble) (rest : List Nibble) (s : State) : State :=
  cipherPhase (latchDigit (afterScan n c rest (setSc .read s)))

/-- The registers after what an iteration does on both displays, from the state after the read on. -/
def afterDigits (s : State) : State := afterEncDigit (afterRawDigit s)

theorem afterCipherPhase_events (n : Nat) (c : Nibble) (rest : List Nibble) (s : State) :
    (afterCipherPhase n c rest s).events = s.events ++ scanEvents s.cfg n c := rfl

theorem afterCipherPhase_time (n : Nat) (c : Nibble) (rest : List Nibble) (s : State) :
    (afterCipherPhase n c rest s).time = s.time + (n + 1) * s.cfg.tRowSettle := rfl

theorem afterDigits_events (s : State) : (afterDigits s).events =
    s.events ++ (positionEvents s.cfg s.cnt ++ byteEvents s.cfg .ch1 true (digitChar s.dig)) ++
      (clearEvents s.cfg .ch2 ++ byteEvents s.cfg .ch2 true (digitChar s.enc) ++ markCharEvents s.cfg s.mw) := rfl

theorem afterDigits_time (s : State) : (afterDigits s).time =
    s.time + rawTicks s.cfg s.cnt + s.line1.ready.waited (rawWaits s.cnt) +
      (32 * s.cfg.tStep + s.cfg.tClearSettle) + s.line2.ready.waited 32 := rfl

theorem afterPlay_of_five {w : Byte} (h : markCount w = 5) (s : State) :
    afterPlay w s = { s with
      lmpState := .idle, lmpIdx := 4, led := false, dlyReq := false, dlyLen := s.cfg.tCharGap,
      events := s.events ++ playEvents s.cfg w, time := s.time + playTime s.cfg (dots w) (dashes w) } := by
  rw [afterPlay, h]
  rfl

theorem eq_of_trace {s t : State} (hrest : { s with events := t.events, time := t.time } = t)
    (hevents : s.events = t.events) (htime : s.time = t.time) : s = t := by
  rw [← hrest, ← hevents, ← htime]

theorem displayTicks_eq {k : BitVec 3} (p : Params) (h : k ≠ 4) :
    displayTicks p k = rawTicks p k + (32 * p.tStep + p.tClearSettle) := by
  rw [displayTicks, if_neg h, rawTicks]
  split <;> omega

theorem iterationWaits1_eq {k : BitVec 3} (h : k ≠ 4) : iterationWaits1 k = rawWaits k := by
  rw [iterationWaits1, rawWaits, countAtRead, if_neg h, if_neg h, Nat.zero_add]

theorem iterationWaits2_eq {k : BitVec 3} (h : k ≠ 4) : iterationWaits2 k = 32 := by
  rw [iterationWaits2, if_neg h]

theorem iterationEvents_eq {k : BitVec 3} (p : Params) (n : Nat) (c d e : Nibble) (w : Byte) (h : k ≠ 4) :
    iterationEvents p k n c d e w = scanEvents p n c ++ positionEvents p k ++ byteEvents p .ch1 true (digitChar d) ++
      clearEvents p .ch2 ++ byteEvents p .ch2 true (digitChar e) ++ markCharEvents p w ++ playEvents p w := by
  rw [iterationEvents, boundaryEvents, countAtRead, if_neg h, if_neg h, List.nil_append]

/-- The last phases: the play, and the counts. -/
theorem advance_afterPlay {n : Nat} {c : Nibble} {rest : List Nibble} {s : State} (hk : s.cnt ≠ 4)
    {e : Nibble} (he : encryptDigit s.cfg (patternDigit s.cfg (capturedPattern s.cfg (BitVec.ofNat 2 n) c)) s.pos = e)
    (hword : markCount (morseRom e) = 5) :
    setSc .check (advanceCounts (setSc .adv (afterPlay (morseRom e)
      (setSc .play (afterDigits (afterCipherPhase n c rest s)))))) = iterated n c rest s := by
  subst he
  rw [afterPlay_of_five hword]
  refine eq_of_trace ?_ ?_ ?_
  · simp only [iterated, afterIteration, iterationWaits1_eq hk, iterationWaits2_eq hk, countAtRead, if_neg hk]
    rfl
  · simp only [iterated, afterIteration, iterationEvents_eq _ _ _ _ _ _ hk]
    simp only [setSc, advanceCounts, afterDigits_events, afterCipherPhase_events, List.append_assoc]
    rfl
  · simp only [iterated, afterIteration, iterationWaits1_eq hk, iterationWaits2_eq hk, displayTicks_eq _ hk]
    simp only [setSc, advanceCounts, afterDigits_time, afterCipherPhase_time]
    have hcfg : (afterCipherPhase n c rest s).cfg = s.cfg := rfl
    have hcnt : (afterCipherPhase n c rest s).cnt = s.cnt := rfl
    have hline1 : (afterCipherPhase n c rest s).line1 = s.line1 := rfl
    have hline2 : (afterCipherPhase n c rest s).line2 = s.line2 := rfl
    have hcfg' : (afterDigits (afterCipherPhase n c rest s)).cfg = s.cfg := rfl
    rw [hcfg, hcnt, hline1, hline2, hcfg']
    omega

/-- What an iteration does on both displays from the read on (45_session_controller.md R214, R215). -/
theorem digits_answered {s : State} (hwf : s.cfg.wf = true) (hr : s.rstIn = none) (hk : s.cnt ≠ 4)
    (hmw : s.mw = morseRom s.enc) (he : s.enc.toNat ≤ 9) (h1 : s.answers .ch1 (rawWaits s.cnt) = true)
    (h2 : s.answers .ch2 32 = true) :
    (((positionPhase s).andThen rawDigitPhase).andThen fun t =>
      ((clearPhase t).andThen encDigitPhase).andThen marksPhase) = .done (afterDigits s) := by
  rw [rawDigit_answered hwf hr hk h1, Run.done_andThen]
  refine encDigit_answered (s := afterRawDigit s) hr hmw he ?_
  rw [afterRawDigit, setSc_answers, answers_sleptLast, answers_channelAfter_other (by decide)]
  exact h2

theorem digitSession_completes {n : Nat} {c : Nibble} {rest : List Nibble} {s : State} (hwf : s.cfg.wf = true)
    (hr : s.rstIn = none) (hk : s.cnt ≠ 4) (hcap : s.captures n c rest) (h1 : s.answers .ch1 (rawWaits s.cnt) = true)
    (h2 : s.answers .ch2 32 = true) : digitSession s = .done (iterated n c rest s) := by
  have hread : readPhase s = .done (latchDigit (afterScan n c rest (setSc .read s))) := by
    rw [readPhase, readDigit_completes (s := setSc .read s) hr hcap, Run.done_andThen]
  have hcipher : cipherPhase (latchDigit (afterScan n c rest (setSc .read s))) = afterCipherPhase n c rest s := rfl
  have henc : (afterCipherPhase n c rest s).enc.toNat ≤ 9 := encryptDigit_le _ _ _
  have hdigits := digits_answered (s := afterCipherPhase n c rest s) hwf hr hk rfl henc h1 h2
  have hword := markCount_morseRom henc
  have hplay : playPhase (afterDigits (afterCipherPhase n c rest s)) =
      .done (afterPlay (morseRom (afterCipherPhase n c rest s).enc)
        (setSc .play (afterDigits (afterCipherPhase n c rest s)))) :=
    playWord_completes hr ((by decide : 1 ≤ 5).trans hword.ge)
  rw [digitSession, hread, Run.done_andThen, Run.done_andThen, hcipher, hdigits, Run.done_andThen, hplay,
    Run.done_andThen]
  exact congrArg Run.done (advance_afterPlay hk rfl hword)

/-! ### The window boundary -/

/-- The registers after a window-boundary reset (45_session_controller.md R210, R211). -/
def afterBoundary (s : State) : State :=
  let cleared := fun (d : Driver) => { transferred s.cfg false s.cfg.cmdHome d with cur := 0 }
  { s with
    cnt := 0, window := [], scPhase := .wsettle, dlyReq := false, dlyLen := s.cfg.tWindowSettle,
    drv1 := cleared s.drv1, drv2 := cleared s.drv2,
    line1 := { s.line1 with ready := s.line1.ready.after 8, view := s.line1.view.cleared },
    line2 := { s.line2 with ready := s.line2.ready.after 8, view := s.line2.view.cleared },
    events := s.events ++ boundaryEvents s.cfg 4,
    time := s.time + (16 * s.cfg.tStep + 2 * s.cfg.tClearSettle + s.cfg.tWindowSettle) + s.line1.ready.waited 8 +
      s.line2.ready.waited 8 }

theorem afterBoundary_events (s : State) : (afterBoundary s).events = s.events ++ boundaryEvents s.cfg 4 := rfl

theorem afterBoundary_time (s : State) : (afterBoundary s).time =
    s.time + (16 * s.cfg.tStep + 2 * s.cfg.tClearSettle + s.cfg.tWindowSettle) + s.line1.ready.waited 8 +
      s.line2.ready.waited 8 := rfl

theorem afterClear_ch1 (s : State) : afterClear .ch1 s = { s with
    dlyReq := false, dlyLen := s.cfg.tClearSettle,
    drv1 := { transferred s.cfg false s.cfg.cmdHome s.drv1 with cur := 0 },
    line1 := { s.line1 with ready := s.line1.ready.after 8, view := s.line1.view.cleared },
    events := s.events ++ clearEvents s.cfg .ch1,
    time := s.time + (8 * s.cfg.tStep + s.cfg.tClearSettle) + s.line1.ready.waited 8 } := rfl

theorem afterClear_ch2 (s : State) : afterClear .ch2 s = { s with
    dlyReq := false, dlyLen := s.cfg.tClearSettle,
    drv2 := { transferred s.cfg false s.cfg.cmdHome s.drv2 with cur := 0 },
    line2 := { s.line2 with ready := s.line2.ready.after 8, view := s.line2.view.cleared },
    events := s.events ++ clearEvents s.cfg .ch2,
    time := s.time + (8 * s.cfg.tStep + s.cfg.tClearSettle) + s.line2.ready.waited 8 } := rfl

/-- The two clears and the settle, together. -/
theorem settled_eq (s : State) : ((emptyWindow (setSc .wsettle (afterClear .ch2 (afterClear .ch1 s)))).beginSleep
    s.cfg.tWindowSettle).endSleep s.cfg.tWindowSettle = afterBoundary s := by
  rw [afterClear_ch2, afterClear_ch1]
  refine eq_of_trace ?_ ?_ ?_
  · rfl
  · simp only [State.endSleep, State.beginSleep, State.emit, emptyWindow, setSc, afterBoundary_events, boundaryEvents,
      if_pos, List.append_assoc]
  · simp only [State.endSleep, State.beginSleep, State.emit, emptyWindow, setSc, afterBoundary_time]
    omega

theorem windowBoundary_full {s : State} (hr : s.rstIn = none) (hk : s.cnt = 4) (h1 : s.answers .ch1 8 = true)
    (h2 : s.answers .ch2 8 = true) : windowBoundary s = .done (afterBoundary s) := by
  have hother : (afterClear .ch1 s).answers .ch2 8 = true := by
    rw [afterClear, answers_sleptLast, answers_channelAfter_other (by decide)]
    exact h2
  rw [windowBoundary, if_pos hk, clearDisplay_inPhase .ch1 .wclr1 hr h1, Run.done_andThen]
  refine (congrArg (Run.andThen · _) (clearDisplay_inPhase .ch2 .wclr2 (s := afterClear .ch1 s) hr hother)).trans ?_
  refine (sleep_none (s := emptyWindow (setSc .wsettle (afterClear .ch2 (afterClear .ch1 s)))) hr _).trans ?_
  exact congrArg Run.done (settled_eq s)

theorem afterBoundary_answers {c : Chan} {n : Nat} {s : State} (h : s.answers c (8 + n) = true) :
    (afterBoundary s).answers c n = true := by
  simp only [State.answers, Ready.answers_add, Bool.and_eq_true] at h
  obtain ⟨-, h⟩ := h
  cases c <;> exact h

theorem displayTicks_full (p : Params) :
    displayTicks p 4 = 16 * p.tStep + 2 * p.tClearSettle + p.tWindowSettle + displayTicks p 0 := by
  show 60 * p.tStep + 4 * p.tClearSettle + p.tWindowSettle = _ + (44 * p.tStep + 2 * p.tClearSettle)
  omega

theorem iterated_afterBoundary {n : Nat} {c : Nibble} {rest : List Nibble} {s : State} (hk : s.cnt = 4) :
    iterated n c rest (afterBoundary s) = iterated n c rest s := by
  have hcnt : (afterBoundary s).cnt = 0 := rfl
  have hcfg : (afterBoundary s).cfg = s.cfg := rfl
  have hpos : (afterBoundary s).pos = s.pos := rfl
  have hready1 : (afterBoundary s).line1.ready = s.line1.ready.after 8 := rfl
  have hready2 : (afterBoundary s).line2.ready = s.line2.ready.after 8 := rfl
  have hwaits1 : iterationWaits1 4 = 8 + iterationWaits1 0 := rfl
  have hwaits2 : iterationWaits2 4 = 8 + iterationWaits2 0 := rfl
  refine eq_of_trace ?_ ?_ ?_
  · simp only [iterated, afterIteration, hk, hcnt, hwaits1, hwaits2, Ready.after_add]
    rfl
  · simp only [iterated, afterIteration, hk, hcnt, hcfg, hpos, iterationEvents, afterBoundary_events,
      List.append_assoc]
    rfl
  · simp only [iterated, afterIteration, hk, hcnt, hcfg, hpos, hready1, hready2, hwaits1, hwaits2, Ready.waited_add,
      displayTicks_full, afterBoundary_time]
    omega

/-- An iteration, whatever the count, whose waits are answered and whose read captures a sample. -/
theorem iterateSession_completes {n : Nat} {c : Nibble} {rest : List Nibble} {s : State} (hwf : s.cfg.wf = true)
    (hr : s.rstIn = none) (hcap : s.captures n c rest) (h1 : s.answers .ch1 (iterationWaits1 s.cnt) = true)
    (h2 : s.answers .ch2 (iterationWaits2 s.cnt) = true) : iterateSession s = .done (iterated n c rest s) := by
  rw [iterateSession_eq]
  by_cases hk : s.cnt = 4
  · have h1 : s.answers .ch1 (8 + 12) = true := by rw [hk] at h1; exact h1
    have h2 : s.answers .ch2 (8 + 32) = true := by rw [hk] at h2; exact h2
    have hnotFull : (afterBoundary s).cnt ≠ 4 := (by decide : (0 : BitVec 3) ≠ 4)
    rw [windowBoundary_full hr hk (answers_le .ch1 8 12 s h1) (answers_le .ch2 8 32 s h2), Run.done_andThen,
      digitSession_completes (s := afterBoundary s) hwf hr hnotFull hcap (afterBoundary_answers h1)
        (afterBoundary_answers h2),
      iterated_afterBoundary hk]
  · rw [iterationWaits1_eq hk] at h1
    rw [iterationWaits2_eq hk] at h2
    rw [windowBoundary, if_neg hk, Run.done_andThen, digitSession_completes hwf hr hk hcap h1 h2]

/-- Settles O43: the phases of an iteration, each with its waits answered. -/
theorem iterateCompletes : Obligations.IterateCompletes := by
  intro s n c rest hwf hr hi1 hi2 hcnt hcap h1 h2
  rw [exec_scIterate hi1 hi2, iterateSession_completes hwf hr hcap h1 h2, Run.result_done, iterated_of_le hcnt]

end Sys2Proof.Machine
end

section
/-! A run whose ready-waits are answered and in which some key is seen (45_session_controller.md R205, R208, R222,
R223): the iterations follow one another, each from the state the one before it left. -/

namespace Sys2Proof.Machine

open Sys2Proof.Config

/-! ### Some sample is captured -/

theorem exists_first_ne {α : Type} [DecidableEq α] (a : α) (l : List α) (h : ∃ x ∈ l, x ≠ a) :
    ∃ n c rest, l = List.replicate n a ++ c :: rest ∧ c ≠ a := by
  induction l with
  | nil => simp at h
  | cons x xs ih =>
    by_cases hx : x = a
    · obtain ⟨n, c, rest, hxs, hc⟩ := ih (by simpa [hx] using h)
      exact ⟨n + 1, c, rest, by rw [hx, hxs, List.replicate_succ, List.cons_append], hc⟩
    · exact ⟨0, x, xs, rfl, hx⟩

/-- Of four rows strobed one after the other, one is any given row (40_keypad_scanner.md R126). -/
theorem exists_turn (n : Nat) (r : BitVec 2) : ∃ j < 4, BitVec.ofNat 2 (n + j) = r :=
  ⟨(r - BitVec.ofNat 2 n).toNat, (r - BitVec.ofNat 2 n).isLt, by
    rw [BitVec.ofNat_add, BitVec.ofNat_toNat, BitVec.setWidth_eq, BitVec.add_comm, BitVec.sub_add_cancel]⟩

/-- Where some row shows a held key, every call of the scanner captures (10_state.md R41). -/
theorem exists_captures {s : State} (h : someKeySeen s.cfg s.keys) : ∃ n c rest, s.captures n c rest := by
  by_cases hlisted : ∃ x ∈ s.cols, x ≠ s.cfg.colIdle
  · obtain ⟨n, c, rest, hcols, hc⟩ := exists_first_ne s.cfg.colIdle s.cols hlisted
    exact ⟨n, c, rest, .inl ⟨hcols, hc⟩⟩
  · obtain ⟨r, hr⟩ := h
    obtain ⟨j, hj, rfl⟩ := exists_turn s.cols.length r
    have hsome : ∃ j, columns s.cfg s.keys (strobe s.cfg (BitVec.ofNat 2 (s.cols.length + j))) ≠ s.cfg.colIdle :=
      ⟨j, hr⟩
    have hidle : s.cols = List.replicate s.cols.length s.cfg.colIdle :=
      List.eq_replicate_of_mem fun x hx => by_contra fun hne => hlisted ⟨x, hx, hne⟩
    exact ⟨_, _, [], .inr ⟨⟨Nat.find hsome, (Nat.find_min' hsome hr).trans_lt hj, rfl, hidle,
      fun k hk => not_not.1 (Nat.find_min hsome hk), rfl, Nat.find_spec hsome⟩, rfl⟩⟩

/-! ### Counts in a trace -/

/-- A request of channel `c`. -/
def isRequest (c : Chan) (e : Event) : Bool := requestChan e == some c

/-- The LED goes on. -/
def isPulse (e : Event) : Bool := e == .led true

theorem countP_flatMap_const {α : Type} {q : Event → Bool} {f : α → List Event} {k : Nat}
    (h : ∀ x, (f x).countP q = k) (l : List α) : (l.flatMap f).countP q = l.length * k := by
  induction l with
  | nil => simp
  | cons x xs ih => rw [List.flatMap_cons, List.countP_append, h, ih, List.length_cons, Nat.succ_mul, Nat.add_comm]

/-- `n` requests on channel `c` are `n` on it and none on the other. -/
def onChan (c c' : Chan) (n : Nat) : Nat := if c' = c then n else 0

theorem byteEvents_requests (p : Params) (c c' : Chan) (rs : Bool) (b : Byte) :
    (byteEvents p c' rs b).countP (isRequest c) = onChan c c' 4 := by
  cases c <;> cases c' <;> rfl

theorem byteEvents_pulses (p : Params) (c : Chan) (rs : Bool) (b : Byte) :
    (byteEvents p c rs b).countP isPulse = 0 := rfl

theorem clearEvents_requests (p : Params) (c c' : Chan) : (clearEvents p c').countP (isRequest c) = onChan c c' 8 := by
  cases c <;> cases c' <;> rfl

theorem clearEvents_pulses (p : Params) (c : Chan) : (clearEvents p c).countP isPulse = 0 := rfl

/-- The scanner neither requests a bus nor lights the LED. -/
theorem scanEvents_count {q : Event → Bool} (hrow : ∀ r, q (.row r) = false) (hdelay : ∀ t, q (.delay t) = false)
    (hsample : ∀ c, q (.sample c) = false) (hnoMatch : ∀ b, q (.noMatch b) = false) (p : Params) (n : Nat)
    (c : Nibble) : (scanEvents p n c).countP q = 0 := by
  have hidle : ∀ r, (idleScanEvents p n r).countP q = 0 := by
    induction n with
    | zero => intro r; rfl
    | succ n ih => intro r; simp [idleScanEvents, hrow, hdelay, hsample, ih]
  have hend : ∀ pat, (noMatchEvents p pat).countP q = 0 := by
    intro pat
    unfold noMatchEvents
    split <;> simp [hnoMatch]
  simp [scanEvents, List.countP_append, hidle, hend, hrow, hdelay, hsample]

theorem playEvents_requests (p : Params) (c : Chan) (w : Byte) : (playEvents p w).countP (isRequest c) = 0 := by
  rw [playEvents, List.countP_append, countP_flatMap_const (k := 0) fun _ => rfl]
  rfl

theorem playEvents_pulses (p : Params) (w : Byte) : (playEvents p w).countP isPulse = markCount w := by
  rw [playEvents, List.countP_append, countP_flatMap_const (k := 1) fun _ => rfl, marksOf, List.length_map,
    List.length_range, Nat.mul_one]
  rfl

theorem markCharEvents_requests (p : Params) (c : Chan) (w : Byte) :
    (markCharEvents p w).countP (isRequest c) = markCount w * onChan c .ch2 4 := by
  rw [markCharEvents, countP_flatMap_const fun _ => byteEvents_requests .., marksOf, List.length_map, List.length_range]

theorem markCharEvents_pulses (p : Params) (w : Byte) : (markCharEvents p w).countP isPulse = 0 := by
  rw [markCharEvents, countP_flatMap_const (k := 0) fun _ => rfl, Nat.mul_zero]

theorem initEvents_requests {p : Params} (hwf : p.wf = true) (c c' : Chan) :
    (initEvents p c').countP (isRequest c) = onChan c c' 34 := by
  have hpair : ∀ pair, (pairEvents p c' pair).countP (isRequest c) = onChan c c' 2 := fun pair => by
    cases c <;> cases c' <;> rfl
  have haddr : [Event.busStart c', .busReady c', .busAddr c' (busAddr p c'), .busReady c'].countP (isRequest c) =
      onChan c c' 2 := by cases c <;> cases c' <;> rfl
  rw [initEvents, List.countP_append, List.countP_append, countP_flatMap_const hpair, initSeq_length hwf, haddr,
    clearEvents_requests]
  unfold onChan
  split <;> rfl

theorem initEvents_pulses (p : Params) (c : Chan) : (initEvents p c).countP isPulse = 0 := by
  rw [initEvents, List.countP_append, List.countP_append, countP_flatMap_const (k := 0) fun _ => rfl, Nat.mul_zero]
  rfl

/-- The ready-waits of channel `c` in an iteration. -/
def iterationWaits (c : Chan) (k : BitVec 3) : Nat :=
  match c with
  | .ch1 => iterationWaits1 k
  | .ch2 => iterationWaits2 k

theorem positionEvents_pulses (p : Params) (k : BitVec 3) : (positionEvents p k).countP isPulse = 0 := by
  unfold positionEvents
  split <;> rfl

theorem boundaryEvents_pulses (p : Params) (k : BitVec 3) : (boundaryEvents p k).countP isPulse = 0 := by
  unfold boundaryEvents
  split <;> rfl

theorem positionEvents_requests (p : Params) (c : Chan) (k : BitVec 3) :
    (positionEvents p k).countP (isRequest c) = onChan c .ch1 (if k = 0 then 8 else 4) := by
  unfold positionEvents
  split
  · exact clearEvents_requests ..
  · exact byteEvents_requests ..

theorem boundaryEvents_requests (p : Params) (c : Chan) (k : BitVec 3) :
    (boundaryEvents p k).countP (isRequest c) = if k = 4 then 8 else 0 := by
  unfold boundaryEvents
  split
  · cases c <;> rfl
  · rfl

/-- Every ready-wait of an iteration is that of one request (45_session_controller.md R209). -/
theorem iterationEvents_requests (p : Params) (c : Chan) (k : BitVec 3) (n : Nat) (x : Nibble) (d e : Nibble)
    {w : Byte} (hw : markCount w = 5) :
    (iterationEvents p k n x d e w).countP (isRequest c) = iterationWaits c k := by
  simp only [iterationEvents, List.countP_append, boundaryEvents_requests, positionEvents_requests,
    scanEvents_count (q := isRequest c) (fun _ => rfl) (fun _ => rfl) (fun _ => rfl) (fun _ => rfl),
    byteEvents_requests, clearEvents_requests, markCharEvents_requests, playEvents_requests, hw]
  cases c <;> rfl

theorem iterationEvents_pulses (p : Params) (k : BitVec 3) (n : Nat) (x : Nibble) (d e : Nibble) (w : Byte) :
    (iterationEvents p k n x d e w).countP isPulse = markCount w := by
  simp only [iterationEvents, List.countP_append, boundaryEvents_pulses, positionEvents_pulses,
    scanEvents_count (q := isPulse) (fun _ => rfl) (fun _ => rfl) (fun _ => rfl) (fun _ => rfl),
    byteEvents_pulses, clearEvents_pulses, markCharEvents_pulses, playEvents_pulses, Nat.zero_add, Nat.add_zero]

/-! ### The iterations of a run -/

/-- The ready-waits of channel `c` in `m` iterations from count `k` on. -/
def iterationsWaits (c : Chan) (m : Nat) (k : BitVec 3) : Nat :=
  match c with
  | .ch1 => iterationsWaits1 m k
  | .ch2 => iterationsWaits2 m k

theorem iterationsWaits_succ (c : Chan) (m : Nat) (k : BitVec 3) :
    iterationsWaits c (m + 1) k = iterationWaits c k + iterationsWaits c m (countAtRead k + 1) := by
  cases c <;> rfl

/-- The count after `m` iterations from count `k` on. -/
def countAfter : Nat → BitVec 3 → BitVec 3
  | 0, k => k
  | m + 1, k => countAfter m (countAtRead k + 1)

/-- What `m` completed iterations leave in the registers that steer the run, and how often they have done what. -/
structure Accepted (m : Nat) (s t : State) : Prop where
  cfg : t.cfg = s.cfg
  rstIn : t.rstIn = s.rstIn
  flag : t.stBusTimeout = s.stBusTimeout
  rem : t.rem + m = s.rem
  pos : t.pos = (s.pos + m) % 2 ^ s.cfg.posWidth
  cnt : t.cnt = countAfter m s.cnt
  ready : ∀ c, (t.line c).ready = (s.line c).ready.after (iterationsWaits c m s.cnt)
  requests : ∀ c, t.events.countP (isRequest c) = s.events.countP (isRequest c) + iterationsWaits c m s.cnt
  pulses : t.events.countP isPulse = s.events.countP isPulse + 5 * m

theorem Accepted.none {s : State} (hpos : s.pos < 2 ^ s.cfg.posWidth) : Accepted 0 s s where
  cfg := rfl
  rstIn := rfl
  flag := rfl
  rem := rfl
  pos := (Nat.mod_eq_of_lt hpos).symm
  cnt := rfl
  ready c := by cases c <;> rfl
  requests c := by cases c <;> rfl
  pulses := rfl

theorem iterated_ready (n : Nat) (x : Nibble) (rest : List Nibble) (s : State) (c : Chan) :
    ((iterated n x rest s).line c).ready = (s.line c).ready.after (iterationWaits c s.cnt) := by
  cases c <;> simp only [iterated, afterIteration, State.line, iterationWaits]

theorem iterated_answers {n m : Nat} {x : Nibble} {rest : List Nibble} {s : State} {c : Chan}
    (h : s.answers c (iterationWaits c s.cnt + m) = true) : (iterated n x rest s).answers c m = true := by
  rw [State.answers, Ready.answers_add, Bool.and_eq_true] at h
  obtain ⟨-, h⟩ := h
  rw [State.answers, iterated_ready]
  exact h

/-- One digit accepted, and then `m` more. -/
theorem Accepted.succ {m n : Nat} {c : Nibble} {rest : List Nibble} {s t : State} (hrem : s.rem = m + 1)
    (h : Accepted m (iterated n c rest s) t) : Accepted (m + 1) s t where
  cfg := h.cfg
  rstIn := h.rstIn
  flag := h.flag
  rem := by
    have hleft : t.rem + m = s.rem - 1 := h.rem
    rw [← Nat.add_assoc, hleft, hrem, Nat.add_sub_cancel]
  pos := by
    have hnext : (iterated n c rest s).pos = (s.pos + 1) % 2 ^ s.cfg.posWidth := rfl
    rw [h.pos, hnext, show (iterated n c rest s).cfg = s.cfg from rfl, Nat.mod_add_mod, Nat.add_assoc, Nat.add_comm 1 m]
  cnt := h.cnt
  ready ch := by
    rw [h.ready, iterated_ready, ← Ready.after_add, iterationsWaits_succ]
    rfl
  requests ch := by
    have hword := markCount_morseRom (encryptDigit_le s.cfg
      (patternDigit s.cfg (capturedPattern s.cfg (BitVec.ofNat 2 n) c)) s.pos)
    have hnext : (iterated n c rest s).events.countP (isRequest ch) =
        s.events.countP (isRequest ch) + iterationWaits ch s.cnt :=
      List.countP_append.trans (congrArg _ (iterationEvents_requests _ _ _ _ _ _ _ hword))
    rw [h.requests, hnext, iterationsWaits_succ, Nat.add_assoc]
    rfl
  pulses := by
    have hword := markCount_morseRom (encryptDigit_le s.cfg
      (patternDigit s.cfg (capturedPattern s.cfg (BitVec.ofNat 2 n) c)) s.pos)
    have hnext : (iterated n c rest s).events.countP isPulse = s.events.countP isPulse + 5 :=
      List.countP_append.trans (congrArg _ ((iterationEvents_pulses _ _ _ _ _ _ _).trans hword))
    rw [h.pulses, hnext]
    omega

/-- All digits left are accepted when the waits are answered and some key is seen (45_session_controller.md R208). -/
theorem iterations_complete {m : Nat} {s : State} (hwf : s.cfg.wf = true) (hr : s.rstIn = none) (hrem : s.rem = m)
    (hpos : s.pos < 2 ^ s.cfg.posWidth) (hkey : someKeySeen s.cfg s.keys)
    (hanswers : ∀ c, s.answers c (iterationsWaits c m s.cnt) = true) :
    ∃ t, iterations m s = .done t ∧ Accepted m s t := by
  induction m generalizing s with
  | zero => exact ⟨s, rfl, .none hpos⟩
  | succ m ih =>
    have hne : s.rem ≠ 0 := by rw [hrem]; exact m.succ_ne_zero
    obtain ⟨n, x, rest, hcap⟩ := exists_captures hkey
    simp only [iterationsWaits_succ] at hanswers
    have hfirst := iterateSession_completes hwf hr hcap (answers_le .ch1 _ _ s (hanswers .ch1))
      (answers_le .ch2 _ _ s (hanswers .ch2))
    have hleft : (iterated n x rest s).rem = m := congrArg (· - 1) hrem
    obtain ⟨t, ht, haccepted⟩ := ih (s := iterated n x rest s) hwf hr hleft (Nat.mod_lt _ (Nat.two_pow_pos _)) hkey
      fun c => iterated_answers (hanswers c)
    exact ⟨t, by rw [iterations, if_neg hne, hfirst, Run.done_andThen, ht], haccepted.succ hrem⟩

/-! ### The whole run -/

/-- The state SC.START leaves (45_session_controller.md R207). -/
def afterStart (s : State) : State :=
  let ready := fun (d : Driver) =>
    { transferred s.cfg false s.cfg.cmdHome d with cur := 0, seq := 11, inited := true }
  let on := fun (l : Line) => { ready := l.ready.after 34, started := true, view := { l.view.cleared with on := true } }
  { s with
    scPhase := .check, dlyReq := false, dlyLen := s.cfg.tClearSettle, drv1 := ready s.drv1, drv2 := ready s.drv2,
    line1 := on s.line1, line2 := on s.line2,
    events := s.events ++ initEvents s.cfg .ch1 ++ initEvents s.cfg .ch2,
    time := s.time + (32 * s.cfg.tStep + s.cfg.tClearSettle) + s.line1.ready.waited 34 +
      (32 * s.cfg.tStep + s.cfg.tClearSettle) + s.line2.ready.waited 34 }

theorem afterInitialise_ch1 (s : State) : afterInitialise .ch1 s = { s with
    dlyReq := false, dlyLen := s.cfg.tClearSettle,
    drv1 := { transferred s.cfg false s.cfg.cmdHome s.drv1 with cur := 0, seq := 11, inited := true },
    line1 := { ready := s.line1.ready.after 34, started := true, view := { s.line1.view.cleared with on := true } },
    events := s.events ++ initEvents s.cfg .ch1,
    time := s.time + (32 * s.cfg.tStep + s.cfg.tClearSettle) + s.line1.ready.waited 34 } := by
  simp only [afterInitialise, channelAfter, sleptLast, State.modDrv, State.modLine, State.line]

theorem afterInitialise_ch2 (s : State) : afterInitialise .ch2 s = { s with
    dlyReq := false, dlyLen := s.cfg.tClearSettle,
    drv2 := { transferred s.cfg false s.cfg.cmdHome s.drv2 with cur := 0, seq := 11, inited := true },
    line2 := { ready := s.line2.ready.after 34, started := true, view := { s.line2.view.cleared with on := true } },
    events := s.events ++ initEvents s.cfg .ch2,
    time := s.time + (32 * s.cfg.tStep + s.cfg.tClearSettle) + s.line2.ready.waited 34 } := by
  simp only [afterInitialise, channelAfter, sleptLast, State.modDrv, State.modLine, State.line]

theorem afterStart_cnt (s : State) : (afterStart s).cnt = s.cnt := rfl

theorem initialised_eq (s : State) :
    { afterInitialise .ch2 (afterInitialise .ch1 s) with scPhase := .check } = afterStart s := by
  rw [afterInitialise_ch2, afterInitialise_ch1]
  rfl

theorem afterStart_answers {c : Chan} {n : Nat} {s : State} (h : s.answers c (34 + n) = true) :
    (afterStart s).answers c n = true := by
  simp only [State.answers, Ready.answers_add, Bool.and_eq_true] at h
  obtain ⟨-, h⟩ := h
  cases c <;> exact h

theorem Accepted.answers {m n : Nat} {s t : State} {c : Chan} (h : Accepted m s t)
    (ha : s.answers c (iterationsWaits c m s.cnt + n) = true) : t.answers c n = true := by
  rw [State.answers, Ready.answers_add, Bool.and_eq_true] at ha
  obtain ⟨-, ha⟩ := ha
  rw [State.answers, h.ready, h.cfg]
  exact ha

/-- The ready-waits of channel `c` in a run of `m` iterations from count `k` on. -/
def runWaits (c : Chan) (m : Nat) (k : BitVec 3) : Nat := 34 + iterationsWaits c m k + 4

/-- A run completes when its waits are answered and some key is seen (45_session_controller.md R205). -/
theorem runSession_completes {s : State} (hwf : s.cfg.wf = true) (hr : s.rstIn = none)
    (hpos : s.pos < 2 ^ s.cfg.posWidth) (hkey : someKeySeen s.cfg s.keys)
    (hanswers : ∀ c, s.answers c (runWaits c s.rem s.cnt) = true) :
    ∃ t, runSession s = .done (afterTerminate t) ∧ Accepted s.rem (afterStart s) t := by
  have hstart : startSession s = .done (afterStart s) := by
    rw [← initialised_eq]
    exact startSession_completes hwf hr (answers_le .ch1 _ _ s (answers_le .ch1 _ _ s (hanswers .ch1)))
      (answers_le .ch2 _ _ s (answers_le .ch2 _ _ s (hanswers .ch2)))
  have hstarted : ∀ c, (afterStart s).answers c (iterationsWaits c s.rem s.cnt + 4) = true := fun c =>
    afterStart_answers (by rw [← Nat.add_assoc]; exact hanswers c)
  obtain ⟨t, ht, haccepted⟩ := iterations_complete (s := afterStart s) (m := s.rem) hwf hr rfl hpos hkey
    fun c => answers_le c _ 4 _ (hstarted c)
  have hend := terminateSession_completes (s := t) (by rw [haccepted.cfg]; exact hwf)
    (by rw [haccepted.rstIn]; exact hr) (haccepted.answers (hstarted .ch1)) (haccepted.answers (hstarted .ch2))
  refine ⟨t, ?_, haccepted⟩
  rw [runSession, hstart, Run.done_andThen]
  refine (congrArg (Run.andThen · _) ht).trans ?_
  rw [Run.done_andThen, hend]

theorem afterTransfer_ch1 (rs : Bool) (b : Byte) (k : BitVec 3 → BitVec 3) (v : View → View) (s : State) :
    afterTransfer .ch1 rs b k v s = { s with
      dlyReq := false, dlyLen := s.cfg.tStep, drv1 := { transferred s.cfg rs b s.drv1 with cur := k s.drv1.cur },
      line1 := { s.line1 with ready := s.line1.ready.after 4, view := v s.line1.view },
      events := s.events ++ byteEvents s.cfg .ch1 rs b,
      time := s.time + 4 * s.cfg.tStep + s.line1.ready.waited 4 } := rfl

theorem afterTransfer_ch2 (rs : Bool) (b : Byte) (k : BitVec 3 → BitVec 3) (v : View → View) (s : State) :
    afterTransfer .ch2 rs b k v s = { s with
      dlyReq := false, dlyLen := s.cfg.tStep, drv2 := { transferred s.cfg rs b s.drv2 with cur := k s.drv2.cur },
      line2 := { s.line2 with ready := s.line2.ready.after 4, view := v s.line2.view },
      events := s.events ++ byteEvents s.cfg .ch2 rs b,
      time := s.time + 4 * s.cfg.tStep + s.line2.ready.waited 4 } := rfl

theorem afterTerminate_pos (s : State) : (afterTerminate s).pos = s.pos := by
  simp only [afterTerminate, afterTransfer_ch1, afterTransfer_ch2]

theorem afterTerminate_rem (s : State) : (afterTerminate s).rem = s.rem := by
  simp only [afterTerminate, afterTransfer_ch1, afterTransfer_ch2]

theorem afterTerminate_cnt (s : State) : (afterTerminate s).cnt = s.cnt := by
  simp only [afterTerminate, afterTransfer_ch1, afterTransfer_ch2]

theorem afterTerminate_flag (s : State) : (afterTerminate s).stBusTimeout = s.stBusTimeout := by
  simp only [afterTerminate, afterTransfer_ch1, afterTransfer_ch2]

theorem afterTerminate_events (s : State) : (afterTerminate s).events =
    s.events ++ byteEvents s.cfg .ch1 false s.cfg.cmdDisplayOff ++ byteEvents s.cfg .ch2 false s.cfg.cmdDisplayOff ++
      [.done] := by
  simp only [afterTerminate, afterTransfer_ch1, afterTransfer_ch2]

theorem afterTerminate_off (s : State) : (afterTerminate s).line1.view.on = false ∧
    (afterTerminate s).line2.view.on = false := by
  simp only [afterTerminate, afterTransfer_ch1, afterTransfer_ch2, and_self]

/-- Settles O46: SC.START, the iterations and SC.TERMINATE, one after the other. -/
theorem runCompletes : Obligations.RunCompletes := by
  intro s hwf hr hpos hi1 hi2 hs1 hs2 h1 h2 hkey
  obtain ⟨t, ht, h⟩ := runSession_completes hwf hr hpos hkey fun c => by
    cases c
    exacts [h1, h2]
  obtain ⟨hoff1, hoff2⟩ := afterTerminate_off t
  refine ⟨afterTerminate t, ?_, rfl, rfl, ?_, (afterTerminate_pos t).trans h.pos, hoff1, hoff2,
    (afterTerminate_flag t).trans h.flag, ?_⟩
  · rw [exec_scRun hi1 hi2 hs1 hs2, ht, Run.result_done]
  · exact (afterTerminate_rem t).trans (Nat.add_eq_right.1 h.rem)
  · rw [afterTerminate_events, List.getLast?_concat]

theorem afterStart_requests {s : State} (hwf : s.cfg.wf = true) (c : Chan) :
    (afterStart s).events.countP (isRequest c) = s.events.countP (isRequest c) + 34 := by
  have hevents : (afterStart s).events = s.events ++ initEvents s.cfg .ch1 ++ initEvents s.cfg .ch2 := rfl
  rw [hevents, List.countP_append, List.countP_append, initEvents_requests hwf, initEvents_requests hwf]
  cases c <;> rfl

theorem afterStart_pulses (s : State) : (afterStart s).events.countP isPulse = s.events.countP isPulse := by
  have hevents : (afterStart s).events = s.events ++ initEvents s.cfg .ch1 ++ initEvents s.cfg .ch2 := rfl
  rw [hevents, List.countP_append, List.countP_append, initEvents_pulses, initEvents_pulses]
  rfl

theorem afterTerminate_requests (s : State) (c : Chan) :
    (afterTerminate s).events.countP (isRequest c) = s.events.countP (isRequest c) + 4 := by
  rw [afterTerminate_events, List.countP_append, List.countP_append, List.countP_append, byteEvents_requests,
    byteEvents_requests]
  cases c <;> rfl

theorem afterTerminate_pulses (s : State) : (afterTerminate s).events.countP isPulse = s.events.countP isPulse := by
  rw [afterTerminate_events, List.countP_append, List.countP_append, List.countP_append, byteEvents_pulses,
    byteEvents_pulses]
  rfl

/-- Every ready-wait of a run is that of one request. -/
theorem run_requests {s t : State} (hwf : s.cfg.wf = true) (h : Accepted s.rem (afterStart s) t) (c : Chan) :
    (afterTerminate t).events.countP (isRequest c) = s.events.countP (isRequest c) + runWaits c s.rem s.cnt := by
  rw [afterTerminate_requests, h.requests, afterStart_requests hwf, afterStart_cnt, runWaits]
  omega

theorem run_pulses {s t : State} (h : Accepted s.rem (afterStart s) t) :
    (afterTerminate t).events.countP isPulse = s.events.countP isPulse + 5 * s.rem := by
  rw [afterTerminate_pulses, h.pulses, afterStart_pulses]

/-- Settles O47: what each of the 100 iterations counts, and the start and the end of the run. -/
theorem runCounts : Obligations.RunCounts := by
  intro p env hwf hiter hr hs1 hs2 h1 h2 hkey
  have hrem : (State.initial p env).rem = 100 := hiter
  have hcnt : (State.initial p env).cnt = 0 := rfl
  have hwaits1 : runWaits .ch1 100 0 = 1130 := by decide
  have hwaits2 : runWaits .ch2 100 0 = 3430 := by decide
  have hanswers : ∀ c, (State.initial p env).answers c
      (runWaits c (State.initial p env).rem (State.initial p env).cnt) = true := fun c => by
    rw [hrem, hcnt]
    cases c
    · rw [hwaits1]; exact h1
    · rw [hwaits2]; exact h2
  obtain ⟨t, ht, h⟩ := runSession_completes (s := State.initial p env) hwf hr (Nat.two_pow_pos _) hkey hanswers
  have hcounts : ∀ c n, runWaits c 100 0 = n →
      ((afterTerminate t).events.filter fun e => requestChan e == some c).length = n := fun c n hn => by
    have hall := run_requests (s := State.initial p env) hwf h c
    rw [hrem, hcnt, hn, List.countP_eq_length_filter] at hall
    exact hall.trans (Nat.zero_add n)
  refine ⟨afterTerminate t, ?_, ?_, ?_, ?_, rfl, ?_, ?_, ?_⟩
  · rw [exec_scRun rfl rfl hs1 hs2, ht, Run.result_done]
  · have hlt := iterCount_lt hwf
    rw [hiter] at hlt
    rw [afterTerminate_pos, h.pos, hrem]
    exact Nat.mod_eq_of_lt hlt
  · exact (afterTerminate_rem t).trans (Nat.add_eq_right.1 h.rem)
  · refine (afterTerminate_cnt t).trans (h.cnt.trans ?_)
    rw [hrem, afterStart_cnt, hcnt]
    decide
  · exact hcounts .ch1 1130 hwaits1
  · exact hcounts .ch2 3430 hwaits2
  · refine (List.countP_eq_length_filter ..).symm.trans ((run_pulses h).trans ?_)
    rw [hrem]
    rfl

end Sys2Proof.Machine
end

section
/-! What the two displays show after an iteration (45_session_controller.md R214, R215, R220), however its waits are
answered. -/

namespace Sys2Proof.Machine

open Sys2Proof.Config

/-! ### The text of a display -/

/-- A character written where the text ends makes it longer by one. -/
theorem Memory.length_write {m : Memory} {a : Nat} (h : m.read a = none) (b : Byte) :
    (m.write a b).length = m.length + 1 := by
  induction m with
  | nil => rfl
  | cons p m ih =>
    obtain ⟨k, v⟩ := p
    have hne : a ≠ k := by
      rintro rfl
      simp [Memory.read] at h
    have hrest : Memory.read m a = none := by simpa [Memory.read, hne] using h
    by_cases hlt : a < k
    · simp [Memory.write, hlt]
    · simp [Memory.write, hlt, hne, ih hrest]

theorem Memory.runFrom_of_some {m : Memory} {k : Nat} {b : Byte} (h : m.read k = some b) (n : Nat) :
    m.runFrom k (n + 1) = b :: m.runFrom (k + 1) n := by
  rw [Memory.runFrom, h]

theorem Memory.runFrom_of_none {m : Memory} {k : Nat} (h : m.read k = none) (n : Nat) : m.runFrom k n = [] := by
  cases n with
  | zero => rfl
  | succ n => rw [Memory.runFrom, h]

/-- A character written at the first unset position is read after those before it. -/
theorem Memory.runFrom_write {m : Memory} {a : Nat} (b : Byte) (ha : m.read a = none) (hnext : m.read (a + 1) = none)
    (n k : Nat) (hk : k + (m.runFrom k n).length = a) :
    (m.write a b).runFrom k (n + 1) = m.runFrom k n ++ [b] := by
  have hend : ∀ n, (m.write a b).runFrom a (n + 1) = [b] := fun n => by
    have hafter := (Memory.read_write_other m a (a + 1) b (Nat.succ_ne_self a)).trans hnext
    rw [runFrom_of_some (Memory.read_write_same m a b), runFrom_of_none hafter]
  induction n generalizing k with
  | zero =>
    obtain rfl : k = a := hk
    exact hend 0
  | succ n ih =>
    cases hread : m.read k with
    | none =>
      rw [runFrom_of_none hread] at hk ⊢
      obtain rfl : k = a := hk
      exact hend (n + 1)
    | some x =>
      have hne : k ≠ a := by
        rintro rfl
        rw [ha] at hread
        cases hread
      have hlater : k + 1 + (m.runFrom (k + 1) n).length = a := by
        rw [runFrom_of_some hread, List.length_cons] at hk
        omega
      rw [runFrom_of_some hread, runFrom_of_some ((Memory.read_write_other m a k b hne).trans hread), ih (k + 1) hlater,
        List.cons_append]

/-- A display that is on holds the characters `l` from position 0 on, and nothing after them. -/
structure Holds (v : View) (l : List Byte) : Prop where
  on : v.on = true
  text : v.text.runFrom 0 v.text.length = l
  unset : ∀ a, l.length ≤ a → v.text.read a = none

theorem Holds.shows {v : View} {l : List Byte} (h : Holds v l) : v.shows = some l := by
  rw [View.shows, if_pos h.on, h.text]

theorem Holds.of_shows {v : View} {l : List Byte} (hon : v.on = true) (h : v.shows = some l)
    (hunset : ∀ a, l.length ≤ a → v.text.read a = none) : Holds v l := by
  rw [View.shows, if_pos hon] at h
  exact ⟨hon, Option.some.inj h, hunset⟩

theorem Holds.cleared {v : View} (h : v.on = true) : Holds v.cleared [] := ⟨h, rfl, fun _ _ => rfl⟩

theorem Holds.character {v : View} {l : List Byte} (h : Holds v l) (hcur : v.vcur = l.length) (b : Byte) :
    Holds (v.character b) (l ++ [b]) where
  on := h.on
  text := by
    have hlength := Memory.length_write (h.unset l.length le_rfl) b
    have hwrite := Memory.runFrom_write b (h.unset l.length le_rfl) (h.unset (l.length + 1) (Nat.le_succ _))
      v.text.length 0 (by rw [h.text, Nat.zero_add])
    rw [h.text] at hwrite
    rw [View.character, hcur, hlength, hwrite]
  unset a ha := by
    rw [List.length_append, List.length_singleton] at ha
    rw [View.character, hcur, Memory.read_write_other _ _ _ _ (by omega)]
    exact h.unset a (by omega)

/-! ### An operation of a component in a phase of the controller -/

/-- What an operation of a component leaves of the session: its phase, its window, its digits. -/
structure SessionKept (s t : State) : Prop where
  cfg : t.cfg = s.cfg
  phase : t.scPhase = s.scPhase
  window : t.window = s.window
  cnt : t.cnt = s.cnt
  dig : t.dig = s.dig
  enc : t.enc = s.enc
  mw : t.mw = s.mw

theorem Keeps.session {x : Component} {s t : State} (h : Keeps x s t) : SessionKept s t :=
  ⟨h.read State.cfg rfl, h.read (·.scPhase) rfl, h.read (·.window) rfl, h.read (·.cnt) rfl, h.read (·.dig) rfl,
    h.read (·.enc) rfl, h.read (·.mw) rfl⟩

/-- It returns with `P`, or stops where the controller is not at its loop test. -/
def ReturnsWith (P : State → Prop) (r : Run) : Prop := r.Ends P fun t => t.scPhase ≠ .check

theorem ReturnsWith.andThen {P P' : State → Prop} {r : Run} {f : State → Run} (h : ReturnsWith P r)
    (hf : ∀ t, P t → ReturnsWith P' (f t)) : ReturnsWith P' (r.andThen f) := Run.Ends.andThen h hf

theorem PhaseKept.not_check {s t : State} (h : PhaseKept s t) (hs : s.scPhase ≠ .check) : t.scPhase ≠ .check := by
  cases h with
  | stays h => rwa [h]
  | halted h _ _ => rw [h]; exact nofun
  | reset h _ => rw [h]; exact nofun

/-- An operation on channel `c` that changes the view by `vs`. -/
theorem ChannelOp.returnsWith {P : State → Prop} {c : Chan} {i j : BusStage} {d : DPhase} {f : State → Run}
    {vs : List (View → View)} {s : State} (hop : ChannelOp c i j f) (hworks : WorksOn c d s (f s))
    (hshows : Shows c vs s (f s)) (hs : s.scPhase ≠ .check)
    (hP : ∀ t, SessionKept s t → (∀ c', c' ≠ c → t.line c' = s.line c') →
      (t.line c).view = applied vs (s.line c).view → P t) : ReturnsWith P (f s) := by
  have hphase := hop.holdsPhase s
  cases hr : f s with
  | done t =>
    rw [hr] at hworks hshows
    obtain ⟨-, hview⟩ := hshows
    exact hP t hworks.keeps.session (fun c' hc => hworks.keeps.otherLine hc) hview
  | stop t =>
    rw [hr] at hphase
    exact PhaseKept.not_check hphase hs

theorem clearDisplay_returnsWith {P : State → Prop} {c : Chan} {s : State} (hs : s.scPhase ≠ .check)
    (hP : ∀ t, SessionKept s t → (∀ c', c' ≠ c → t.line c' = s.line c') →
      (t.line c).view = (s.line c).view.cleared → P t) : ReturnsWith P (clearDisplay c s) :=
  (clearDisplay_op c).returnsWith (clearDisplay_works c s) (clearDisplay_shows c s) hs fun t ht hother hview =>
    hP t ht hother (hview.trans (View.clear_then_home _ _))

theorem writeChar_returnsWith {P : State → Prop} {c : Chan} {b : Byte} {s : State} (hs : s.scPhase ≠ .check)
    (hP : ∀ t, SessionKept s t → (∀ c', c' ≠ c → t.line c' = s.line c') →
      (t.line c).view = (s.line c).view.character b → P t) : ReturnsWith P (writeChar c b s) :=
  (writeChar_op c b).returnsWith (writeChar_works c b s) (writeChar_shows c b s) hs hP

theorem moveCursor_returnsWith {P : State → Prop} {c : Chan} {o : BitVec 2} {s : State} (hwf : s.cfg.wf = true)
    (hs : s.scPhase ≠ .check) (hP : ∀ t, SessionKept s t → (∀ c', c' ≠ c → t.line c' = s.line c') →
      (t.line c).view = { (s.line c).view with vcur := o.toNat } → P t) : ReturnsWith P (moveCursor c o s) :=
  (moveCursor_op c o).returnsWith (moveCursor_works c o s) (moveCursor_shows c o s) hs fun t ht hother hview =>
    hP t ht hother (hview.trans (View.command_setCursor hwf _ _))

/-! ### The phases of an iteration -/

/-- Display 1 holds the characters of the window, which has room for one more digit; display 2 is on. -/
structure WindowShown (s : State) : Prop where
  build : s.cfg.wf = true
  room : s.cnt.toNat ≤ 3
  length : s.window.length = s.cnt.toNat
  first : Holds s.line1.view (s.window.map digitChar)
  second : s.line2.view.on = true

theorem WindowShown.setSc {s : State} (h : WindowShown s) (q : ScPhase) : WindowShown (setSc q s) :=
  ⟨h.build, h.room, h.length, h.first, h.second⟩

/-- An operation has kept the session, and display 1 still holds the window. -/
theorem WindowShown.kept {s t : State} (h : WindowShown s) (k : SessionKept s t)
    (hfirst : Holds t.line1.view (s.window.map digitChar)) (hsecond : t.line2 = s.line2) : WindowShown t where
  build := by rw [k.cfg]; exact h.build
  room := by rw [k.cnt]; exact h.room
  length := by rw [k.window, k.cnt]; exact h.length
  first := by rw [k.window]; exact hfirst
  second := by rw [hsecond]; exact h.second

/-- The window-boundary reset empties the window and display 1 (45_session_controller.md R210, R211). -/
theorem windowBoundary_shows {s : State} (hwf : s.cfg.wf = true) (h1 : s.line1.view.on = true)
    (h2 : s.line2.view.on = true) (h : s.cnt ≠ 4 → WindowShown s) : ReturnsWith WindowShown (windowBoundary s) := by
  by_cases hcnt : s.cnt = 4
  · rw [windowBoundary, if_pos hcnt]
    have hcleared : ReturnsWith (fun t => t.cfg = s.cfg ∧ Holds t.line1.view [] ∧ t.line2.view.on = true)
        ((clearDisplay .ch1 (setSc .wclr1 s)).andThen fun t => clearDisplay .ch2 (setSc .wclr2 t)) := by
      refine ReturnsWith.andThen (P := fun t => t.cfg = s.cfg ∧ Holds t.line1.view [] ∧ t.line2.view.on = true)
        (clearDisplay_returnsWith nofun fun t ht hother hview => ⟨ht.cfg, ?_, ?_⟩) fun t ⟨hcfg, hfirst, hsecond⟩ => ?_
      · exact hview ▸ Holds.cleared h1
      · exact (congrArg (·.view.on) (hother .ch2 nofun)).trans h2
      · refine clearDisplay_returnsWith nofun fun u hu hother hview => ⟨hu.cfg.trans hcfg, ?_, ?_⟩
        · exact (congrArg Line.view (hother .ch1 nofun)) ▸ hfirst
        · exact (congrArg View.on hview).trans hsecond
    refine hcleared.andThen fun t ⟨hcfg, hfirst, hsecond⟩ => ?_
    refine sleep_ends .player (emptyWindow (setSc .wsettle t)) _ (fun _ _ => ?_) fun u hu => ?_
    · exact ⟨(congrArg Params.wf hcfg).trans hwf, Nat.zero_le 3, rfl, hfirst, hsecond⟩
    · exact PhaseKept.not_check (.of_wasReset hu) (nofun : (emptyWindow (setSc .wsettle t)).scPhase ≠ .check)
  · rw [windowBoundary, if_neg hcnt]
    exact h hcnt

theorem readPhase_shows {s : State} (h : WindowShown s) : ReturnsWith WindowShown (readPhase s) := by
  refine ReturnsWith.andThen (P := WindowShown) ?_ fun t ht => ⟨ht.build, ht.room, ht.length, ht.first, ht.second⟩
  have hscans := readDigit_scans (setSc .read s)
  have hphase := hscans.holdsPhase
  cases hr : readDigit (setSc .read s) with
  | done t =>
    rw [hr] at hscans
    have hline1 : t.line1 = s.line1 := hscans.keeps.read (·.line1) rfl
    exact (h.setSc .read).kept hscans.keeps.session (by rw [hline1]; exact h.first) (hscans.keeps.read (·.line2) rfl)
  | stop t =>
    rw [hr] at hphase
    exact PhaseKept.not_check hphase nofun

/-- The word in `mw` is that of the encrypted digit (45_session_controller.md R213). -/
structure WordReady (s : State) : Prop where
  word : s.mw = morseRom s.enc
  digit : s.enc.toNat ≤ 9

theorem WordReady.setSc {s : State} (h : WordReady s) (q : ScPhase) : WordReady (setSc q s) := ⟨h.word, h.digit⟩

theorem WordReady.kept {s t : State} (h : WordReady s) (k : SessionKept s t) : WordReady t where
  word := by rw [k.mw, k.enc]; exact h.word
  digit := by rw [k.enc]; exact h.digit

theorem cipherPhase_shows {s : State} (h : WindowShown s) :
    ReturnsWith (fun t => WindowShown t ∧ WordReady t) (.done (cipherPhase s)) :=
  ⟨⟨h.build, h.room, h.length, h.first, h.second⟩, rfl, encryptDigit_le _ _ _⟩

/-- The positioning puts the cursor behind the window (45_session_controller.md R214). -/
theorem positionPhase_shows {s : State} (h : WindowShown s) (hw : WordReady s) :
    ReturnsWith (fun t => (WindowShown t ∧ t.line1.view.vcur = t.cnt.toNat) ∧ WordReady t) (positionPhase s) := by
  have hreturns : ∀ t, SessionKept (setSc .ch1pos s) t → t.line2 = s.line2 →
      Holds t.line1.view (s.window.map digitChar) → t.line1.view.vcur = s.cnt.toNat →
      (WindowShown t ∧ t.line1.view.vcur = t.cnt.toNat) ∧ WordReady t := fun t ht hother hholds hcur =>
    ⟨⟨(h.setSc .ch1pos).kept ht hholds hother, by rw [ht.cnt]; exact hcur⟩, (hw.setSc .ch1pos).kept ht⟩
  unfold positionPhase
  dsimp only
  split
  · next hcnt =>
    have hzero : s.cnt = 0 := hcnt
    have hempty : s.window = [] := List.length_eq_zero_iff.1 (by rw [h.length, hzero]; rfl)
    refine clearDisplay_returnsWith nofun fun t ht hother hview => hreturns t ht (hother .ch2 nofun) ?_ ?_
    · rw [hempty]
      exact hview ▸ Holds.cleared h.first.on
    · rw [hzero]
      exact congrArg View.vcur hview
  · next hcnt =>
    have hroom := h.room
    have hcur : (s.cnt.setWidth 2).toNat = s.cnt.toNat := by rw [BitVec.toNat_setWidth]; omega
    refine moveCursor_returnsWith h.build nofun fun t ht hother hview => hreturns t ht (hother .ch2 nofun) ?_ ?_
    · obtain ⟨hon, htext, hunset⟩ := h.first
      exact hview ▸ ⟨hon, htext, hunset⟩
    · exact (congrArg View.vcur hview).trans hcur

/-- Display 1 holds the characters of the window and of the digit that enters it next; display 2 is on. -/
structure DigitShown (s : State) : Prop where
  first : s.line1.view.shows = some ((s.window ++ [s.dig]).map digitChar)
  second : s.line2.view.on = true
  word : WordReady s

theorem DigitShown.kept {s t : State} {q : ScPhase} (h : DigitShown s) (k : SessionKept (setSc q s) t)
    (hfirst : t.line1 = s.line1) (hsecond : t.line2.view.on = s.line2.view.on) : DigitShown t where
  first := by rw [hfirst, k.window, k.dig]; exact h.first
  second := hsecond.trans h.second
  word := (h.word.setSc q).kept k

theorem rawDigitPhase_shows {s : State} (h : WindowShown s) (hcur : s.line1.view.vcur = s.cnt.toNat)
    (hw : WordReady s) : ReturnsWith DigitShown (rawDigitPhase s) := by
  refine writeChar_returnsWith nofun fun t ht hother hview => ⟨?_, ?_, (hw.setSc .ch1wr).kept ht⟩
  · have hlength : s.line1.view.vcur = (s.window.map digitChar).length := by rw [hcur, List.length_map, h.length]
    have hholds := h.first.character hlength (digitChar s.dig)
    rw [ht.window, ht.dig, List.map_append]
    exact (hview ▸ hholds : Holds t.line1.view _).shows
  · exact (congrArg (·.view.on) (hother .ch2 nofun)).trans h.second

/-- Display 2 holds the characters `l` up to its cursor. -/
structure EncShown (l : List Byte) (s : State) : Prop extends DigitShown s where
  holds : Holds s.line2.view l
  cursor : s.line2.view.vcur = l.length

theorem clearPhase_shows {s : State} (h : DigitShown s) : ReturnsWith (EncShown []) (clearPhase s) := by
  refine clearDisplay_returnsWith nofun fun t ht hother hview => ⟨h.kept ht (hother .ch1 nofun) ?_, ?_, ?_⟩
  · exact (congrArg View.on hview).trans rfl
  · exact hview ▸ Holds.cleared h.second
  · exact congrArg View.vcur hview

/-- A character on display 2 behind the others. -/
theorem EncShown.character {l : List Byte} {b : Byte} {q : ScPhase} {s t : State} (h : EncShown l s)
    (k : SessionKept (setSc q s) t) (hfirst : t.line1 = s.line1) (hview : t.line2.view = s.line2.view.character b) :
    EncShown (l ++ [b]) t where
  toDigitShown := h.toDigitShown.kept k hfirst ((congrArg View.on hview).trans rfl)
  holds := hview ▸ h.holds.character h.cursor b
  cursor := by
    rw [hview, List.length_append, ← h.cursor]
    rfl

theorem encDigitPhase_shows {s : State} (h : EncShown [] s) :
    ReturnsWith (fun t => EncShown [digitChar t.enc] t) (encDigitPhase s) := by
  refine writeChar_returnsWith nofun fun t ht hother hview => ?_
  rw [ht.enc]
  exact h.character ht (hother .ch1 nofun) hview

/-- The marks of the word, one character each (45_session_controller.md R217). -/
theorem writeMarks_shows {l : List Byte} {w : Byte} {e : Nibble} (n i : Nat) {s : State} (hs : s.scPhase = .ch2mrk)
    (h : EncShown l s) (hmw : s.mw = w) (he : s.enc = e) :
    ReturnsWith (fun t => EncShown (l ++ markChars w i n) t ∧ t.enc = e) (writeMarks n i s) := by
  induction n generalizing i l s with
  | zero =>
    have hnil : l ++ markChars w i 0 = l := List.append_nil l
    exact ⟨by rw [hnil]; exact h, he⟩
  | succ n ih =>
    rw [writeMarks]
    refine ReturnsWith.andThen (P := fun t => EncShown (l ++ [markChar (markAt w i)]) t ∧ t.scPhase = .ch2mrk ∧
      t.mw = w ∧ t.enc = e) ?_ fun t ⟨ht, hp, hmw', he'⟩ => ?_
    · refine writeChar_returnsWith (fun hc => by cases hs.symm.trans hc) fun t ht hother hview => ?_
      have hkept : SessionKept (setSc .ch2mrk s) t :=
        ⟨ht.cfg, ht.phase.trans hs, ht.window, ht.cnt, ht.dig, ht.enc, ht.mw⟩
      exact ⟨h.character hkept (hother .ch1 nofun) (hmw ▸ hview), hkept.phase, ht.mw.trans hmw, ht.enc.trans he⟩
    · have hnext := ih (i + 1) hp ht hmw' he'
      rw [Nat.add_comm n 1, markChars_add, ← List.append_assoc]
      exact hnext

/-- Display 1 holds the window and its next digit, display 2 the encrypted digit and its marks. -/
structure BothShown (s : State) : Prop where
  first : s.line1.view.shows = some ((s.window ++ [s.dig]).map digitChar)
  second : s.line2.view.shows = some (digitChar s.enc :: (morseMarks s.enc.toNat).map markChar)

theorem marksPhase_shows {s : State} (h : EncShown [digitChar s.enc] s) : ReturnsWith BothShown (marksPhase s) := by
  have hmarks : markChars s.mw 0 (markCount s.mw) = (morseMarks s.enc.toNat).map markChar := by
    rw [← marksOf_morseRom, ← h.word.word, marksOf, List.map_map, markChars, List.range_eq_range']
    rfl
  have hstart : EncShown [digitChar s.enc] (setSc .ch2mrk s) :=
    ⟨⟨h.first, h.second, h.word.setSc .ch2mrk⟩, h.holds, h.cursor⟩
  have hwritten := writeMarks_shows (markCount s.mw) 0 (s := setSc .ch2mrk s) rfl hstart rfl rfl
  refine hwritten.mono (fun t ⟨ht, henc⟩ => ⟨ht.first, ?_⟩) fun _ => id
  rw [ht.holds.shows, henc, setSc_mw, setSc_enc, hmarks]
  rfl

theorem playPhase_shows {s : State} (h : BothShown s) : ReturnsWith BothShown (playPhase s) := by
  refine (playWord_ends s.mw (setSc .play s)).mono (fun t ⟨ht, _⟩ => ?_) fun t ht =>
    PhaseKept.not_check (.of_wasReset ht) (nofun : (setSc .play s).scPhase ≠ .check)
  have hkept := ht.keeps.session
  have hline1 : t.line1 = s.line1 := ht.keeps.read (·.line1) rfl
  have hline2 : t.line2 = s.line2 := ht.keeps.read (·.line2) rfl
  exact ⟨by rw [hline1, hkept.window, hkept.dig]; exact h.first, by rw [hline2, hkept.enc]; exact h.second⟩

/-- The displays after an iteration: the phases, one after the other. -/
theorem iterateSession_shows {s : State} (hwf : s.cfg.wf = true) (h1 : s.line1.view.on = true)
    (h2 : s.line2.view.on = true) (h : s.cnt ≠ 4 → WindowShown s) :
    ReturnsWith (fun t => t.line1.view.shows = some (t.window.map digitChar) ∧
      t.line2.view.shows = some (digitChar t.enc :: (morseMarks t.enc.toNat).map markChar)) (iterateSession s) := by
  refine (((((((((windowBoundary_shows hwf h1 h2 h).andThen
    fun t ht => readPhase_shows ht).andThen
    fun t ht => cipherPhase_shows ht).andThen
    fun t ht => positionPhase_shows ht.1 ht.2).andThen
    fun t ht => rawDigitPhase_shows ht.1.1 ht.1.2 ht.2).andThen
    fun t ht => clearPhase_shows ht).andThen
    fun t ht => encDigitPhase_shows ht).andThen
    fun t ht => marksPhase_shows ht).andThen
    fun t ht => playPhase_shows ht).andThen fun t ht => ⟨ht.first, ht.second⟩

/-- Settles O44: an iteration that comes back to the loop test has returned, with the displays as its phases leave
them. -/
theorem iterationShows : Obligations.IterationShows := by
  intro s t hwf hcnt h1 h2 hshows hlength hunset _ h hp
  have hwindow : s.cnt ≠ 4 → WindowShown s := fun hne => by
    have hroom : s.cnt.toNat ≤ 3 := by bv_omega
    exact ⟨hwf, hroom, hlength, .of_shows h1 (hshows hroom) fun a ha => hunset a (by simpa [hlength] using ha), h2⟩
  have hends := iterateSession_shows hwf h1 h2 hwindow
  rcases Run.Ends.result hends (ifSessionOpen_next h) with hshown | hstopped
  · exact hshown
  · exact absurd hp hstopped

end Sys2Proof.Machine
end

section
/-! BusTimeout in a display operation (60_exceptions.md R238, R245): `Performs` says in which ready-wait the operation
stands; with a bound that wait is given up, and the block is left in `SC_HALT`. -/

namespace Sys2Proof.Machine

/-! ### A wait the bound ends -/

/-- The next ready-wait sees no flag before a bound of `limit` has elapsed: the flag never sets, or it comes too late
(60_exceptions.md R238; assumption 11). -/
def Ready.late (limit : Nat) (r : Ready) : Prop := ∀ w, r.pop.1 = some w → limit ≤ w ∧ 0 < w

theorem not_inTime_of_le {limit w : Nat} (hlate : limit ≤ w) (hpos : 0 < w) : inTime (some limit) w = false := by
  simp [inTime, hlate, Nat.ne_of_gt hpos]

theorem Ready.late.not_answers {limit : Nat} {r : Ready} (h : r.late limit) : r.answers (some limit) 1 = false := by
  rw [Ready.answers]
  cases hpop : r.pop.1 with
  | none => rfl
  | some w =>
    obtain ⟨hlate, hpos⟩ := h w hpop
    simp [not_inTime_of_le hlate hpos]

/-- The next wait after `k` is not answered where its flag comes too late. -/
theorem not_answers_of_late {c : Chan} {s : State} {k limit : Nat} (hbound : s.cfg.busTimeout = some limit)
    (h : ((s.line c).ready.after k).late limit) : s.answers c (k + 1) = false := by
  rw [State.answers, Ready.answers_add, hbound, h.not_answers, Bool.and_false]

/-- What a ready-wait on channel `c` leaves that was given up after `n`: its request stays on the bus. -/
def State.timedOut (s : State) (c : Chan) (n : Nat) : State :=
  { s with events := s.events ++ [.busTimeout c], time := s.time + n, stBusTimeout := true, scPhase := .halt }

/-- A flag that comes too late, or never: the wait is given up when the bound has elapsed (60_exceptions.md R238). -/
theorem readyWait_late {c : Chan} {s : State} {limit : Nat} (v : View → View) (hr : s.rstIn = none)
    (hbound : s.cfg.busTimeout = some limit) (h : (s.line c).ready.late limit) :
    readyWait c v s = .stop (s.timedOut c limit) := by
  rcases readyWait_cases c v s with ⟨w, r, hpop, hw, -⟩ | ⟨-, hnone, -⟩ | ⟨n, hn, hwait⟩
  · obtain ⟨hlate, hpos⟩ := h w (by rw [hpop])
    rw [hbound, not_inTime_of_le hlate hpos] at hw
    cases hw
  · rw [hbound] at hnone; cases hnone
  · rw [hbound, Option.some.injEq] at hn
    subst hn
    exact hwait.trans (readyGivenUp_stop c limit hr)

/-- A wait that was given up ends in `SC_HALT`, which no step leaves (45_session_controller.md R222). -/
theorem run_timedOut {s : State} (hwf : s.cfg.wf = true) (hrst : s.rst = false) (c : Chan) (limit n : Nat) :
    core.run n (s.timedOut c limit) = .next (s.timedOut c limit) :=
  run_of_step_self (step_of_halt (s := s.timedOut c limit) hwf hrst rfl) n

/-- DCD.SENDBYTE whose flag comes too late, or never: the request stands on the bus. -/
theorem sendByte_late {c : Chan} {s : State} {limit : Nat} (b : Byte) (v : View → View) (hr : s.rstIn = none)
    (hbound : s.cfg.busTimeout = some limit) (h : (s.line c).ready.late limit) :
    sendByte c b v s = .stop ((s.requestData c b).timedOut c limit) := by
  have hput : Progress c 0 [.busData c b] s (s.requestData c b) := .request rfl _ s
  have hquiet : (s.requestData c b).rstIn = none := hput.rstIn.trans hr
  rw [sendByte, writeData, resetPoint_none hquiet, Run.done_andThen]
  exact readyWait_late v hquiet (by rw [hput.cfg]; exact hbound) (by rw [hput.ready]; exact h)

/-! ### In any wait of any display operation -/

/-- Settles O34: the operation stands in the wait of the request after the answered ones, which is given up. -/
theorem busTimeoutHalts : Obligations.BusTimeoutHalts := by
  refine ⟨?_, ?_⟩
  · intro s b c i limit hi hr hinit hbound hlate
    rw [exec_onChannel (meaning := fun c => ifInitialised c s (sendByte c b id s)) hi rfl rfl,
      ifInitialised_ready hinit, sendByte_late b id hr hbound hlate, Run.result_stop]
    simp [State.timedOut, State.requestData, State.emit]
  · intro s c i k limit hwf hrst hr hi hfits hbound hk ha hlate
    obtain ⟨f, hf, hexec⟩ := exec_performs_of_channelFits (p := s.cfg) hi hfits
    obtain ⟨u, v, hsu, -, hwait⟩ := hf.waits s k rfl hr hk ha (not_answers_of_late hbound hlate)
    have hstop : readyWait c v u = .stop (u.timedOut c limit) :=
      readyWait_late v (hsu.rstIn.trans hr) (by rw [hsu.cfg]; exact hbound) (by rw [hsu.ready]; exact hlate)
    refine ⟨u.timedOut c limit, by rw [hexec, hwait, hstop, Run.result_stop], ?_, ?_, hsu.read (·.stNomatch) rfl, rfl,
      hsu.read (·.stDone) rfl, rfl, run_timedOut (by rw [hsu.cfg]; exact hwf) (hsu.read (·.rst) rfl ▸ hrst) c limit⟩
    · exact congrArg (· ++ [.busTimeout c]) hsu.events
    · exact congrArg (· + limit) hsu.time

end Sys2Proof.Machine
end

section
/-! What every operation of the block is made of, said once: register writes, events that are no bus request, and bus
requests, each with the ready-wait that answers it (20_memory.md R66, 70_reset_and_hazards.md R276). What holds of these
and composes holds of every instruction. -/

namespace Sys2Proof.Machine

open Sys2Proof.Config

/-! ### The parts of an operation -/

/-- `s` with `rst` to come after `k` more events (70_reset_and_hazards.md R267). -/
def State.rstAfter (s : State) (k : Option Nat) : State := { s with rstIn := k }

@[simp] theorem rstAfter_events (s : State) (k : Option Nat) : (s.rstAfter k).events = s.events := rfl

/-- A change of the state that emits nothing, keeps the build, and does the same whenever `rst` is to come. -/
structure Silent (g : State → State) : Prop where
  events : ∀ s, (g s).events = s.events
  cfg : ∀ s, (g s).cfg = s.cfg
  rstAfter : ∀ s k, g (s.rstAfter k) = (g s).rstAfter k

/-- A change that is seen to be silent by computing it. -/
theorem Silent.of_eq {g : State → State}
    (h : (fun s k => ((g s).events, (g s).cfg, g (s.rstAfter k))) = fun s k => (s.events, s.cfg, (g s).rstAfter k)) :
    Silent g := by
  have hall := fun s k => congrFun (congrFun h s) k
  simp only [Prod.mk.injEq] at hall
  exact ⟨fun s => (hall s none).1, fun s => (hall s none).2.1, fun s k => (hall s k).2.2⟩

theorem Silent.modDrv (c : Chan) (f : Driver → Driver) : Silent fun s => s.modDrv c f := by
  cases c <;> exact .of_eq rfl

/-- An operation of the block. -/
inductive Operation : (State → Run) → Prop
  | update {g : State → State} (hg : Silent g) : Operation fun s => .done (g s)
  /-- the scan is left waiting for a key (40_keypad_scanner.md R130) -/
  | stop : Operation .stop
  | event (e : Event) (he : requestChan e = none) : Operation fun s => resetPoint (s.emit e)
  /-- a request is put on the bus of a channel, and its answer is waited for -/
  | request {c : Chan} {e : Event} {put : State → State} (he : requestChan e = some c) (hput : Silent put)
    (hbusy : ∀ s, ((put s).drv c).busReq ≠ .none) (v : View → View) :
    Operation fun s => (resetPoint ((put s).emit e)).andThen (readyWait c v)
  | andThen {f g : State → Run} (hf : Operation f) (hg : Operation g) : Operation fun s => (f s).andThen g
  /-- what is done depends on the state, and not on whether `rst` is to come -/
  | read {α : Type} (a : State → α) (ha : ∀ s k, a (s.rstAfter k) = a s) {F : α → State → Run}
    (hF : ∀ v, Operation (F v)) : Operation fun s => F (a s) s

theorem Operation.done : Operation .done := .update (.of_eq rfl)

/-- A register write goes before. -/
theorem Operation.after {f : State → Run} {g : State → State} (hf : Operation f) (hg : Silent g) :
    Operation fun s => f (g s) := (Operation.update hg).andThen hf

theorem Operation.ite {f g : State → Run} (p : Prop) [Decidable p] (hf : Operation f) (hg : Operation g) :
    Operation fun s => if p then f s else g s := by
  by_cases h : p
  · simpa only [if_pos h] using hf
  · simpa only [if_neg h] using hg

/-- The parameters are read. -/
theorem Operation.readCfg {α : Type} (a : Params → α) {F : α → State → Run} (hF : ∀ v, Operation (F v)) :
    Operation fun s => F (a s.cfg) s := .read (fun s => a s.cfg) (fun _ _ => rfl) hF

theorem sleep_operation (n : Nat) : Operation fun s => s.sleep n :=
  have hbegin : Silent fun s => { s with dlyReq := true, dlyLen := n } := .of_eq rfl
  have hend : Silent fun s => s.endSleep n := .of_eq rfl
  ((Operation.event (.delay n) rfl).after hbegin).andThen (.update hend)

/-! ### The display channels -/

theorem sendByte_operation (c : Chan) (b : Byte) (v : View → View) : Operation (sendByte c b v) :=
  .request (e := .busData c b) rfl (.modDrv c fun d => { d with busReq := .data, busByte := b }) (by simp) v

theorem stepDelay_operation : Operation stepDelay := .readCfg (·.tStep) sleep_operation

theorem setPhase_silent (c : Chan) (q : DPhase) : Silent (setPhase c q) := .modDrv c _

theorem setCursor_silent (c : Chan) (k : BitVec 3) : Silent (setCursor c k) := .modDrv c _

theorem sendFrame_operation (c : Chan) (n : Nibble) (en rs : Bool) (v : View → View) :
    Operation (sendFrame c n en rs v) :=
  ((Operation.readCfg (fun p => frame p n en rs) fun b => sendByte_operation c b v).andThen
    stepDelay_operation).andThen (.update (.modDrv c _))

theorem sendNibble_operation (c : Chan) (n : Nibble) (rs : Bool) (v : View → View) :
    Operation (sendNibble c n rs v) :=
  (sendFrame_operation c n true rs id).andThen (sendFrame_operation c n false rs v)

theorem transfer_operation (c : Chan) (rs : Bool) (b : Byte) : Operation (transfer c rs b) :=
  ((sendNibble_operation c (highNibble b) rs id).after (.modDrv c _)).andThen
    (.readCfg id fun p => sendNibble_operation c (lowNibble b) rs (View.receive p rs b))

theorem finish_operation (c : Chan) : Operation (finish c) :=
  (Operation.update (setPhase_silent c .idle)).after (setPhase_silent c .done)

theorem setCursor_finish_operation (c : Chan) (k : BitVec 3) : Operation fun s => finish c (setCursor c k s) :=
  (finish_operation c).after (setCursor_silent c k)

theorem writeCommand_operation (c : Chan) (b : Byte) : Operation (writeCommand c b) :=
  (transfer_operation c false b).andThen (finish_operation c)

theorem writeChar_operation (c : Chan) (b : Byte) : Operation (writeChar c b) :=
  (transfer_operation c true b).andThen
    (.read (fun s => (s.drv c).cur + 1) (fun s k => by cases c <;> rfl) (setCursor_finish_operation c))

theorem commandTransfer_operation (c : Chan) (b : Params → Byte) : Operation fun s => transfer c false (b s.cfg) s :=
  .readCfg b (transfer_operation c false)

theorem moveCursor_operation (c : Chan) (o : BitVec 2) : Operation (moveCursor c o) :=
  (commandTransfer_operation c (cursorCommand · o)).andThen (setCursor_finish_operation c _)

theorem displayOff_operation (c : Chan) : Operation (displayOff c) :=
  .readCfg (·.cmdDisplayOff) (writeCommand_operation c)

theorem clearDisplay_operation (c : Chan) : Operation (clearDisplay c) :=
  have hsettle : Operation fun s => (setPhase c .settle s).sleep s.cfg.tClearSettle :=
    .readCfg (·.tClearSettle) fun n => (sleep_operation n).after (setPhase_silent c .settle)
  (((commandTransfer_operation c (·.cmdClear)).andThen (commandTransfer_operation c (·.cmdHome))).andThen
    hsettle).andThen (setCursor_finish_operation c 0)

theorem sendRaw_operation (c : Chan) (b : Byte) : Operation (sendRaw c b) :=
  (sendByte_operation c b id).andThen stepDelay_operation

theorem sendPairs_operation (c : Chan) (ps : List (Byte × Byte)) (j : Nat) : Operation (sendPairs c ps j) := by
  induction ps generalizing j with
  | nil => exact .done
  | cons p ps ih =>
    have hfirst : Operation fun s => sendRaw c p.1 (setSeq c j s) := (sendRaw_operation c p.1).after (.modDrv c _)
    exact (hfirst.andThen (sendRaw_operation c p.2)).andThen (ih (j + 1))

theorem startBus_operation (c : Chan) : Operation (startBus c) := by
  have hput : Silent fun s => ((setPhase c .start s).modDrv c fun d => { d with busReq := .start }).modLine c fun l =>
      { l with started := true } := by cases c <;> exact .of_eq rfl
  exact .request (e := .busStart c) rfl hput (by simp) id

theorem addressBus_operation (c : Chan) : Operation (addressBus c) := by
  have hrequest : ∀ a, Operation fun s => (writeAddr c a (setPhase c .addr s)).andThen (readyWait c id) := fun a => by
    have hput : Silent fun s => (setPhase c .addr s).modDrv c fun d => { d with busReq := .addr, busByte := a } := by
      cases c <;> exact .of_eq rfl
    exact .request (e := .busAddr c a) rfl hput (by simp) id
  exact .readCfg (busAddr · c) hrequest

theorem initDisplay_operation (c : Chan) : Operation (initDisplay c) := by
  have hpairs : Operation fun s => sendPairs c s.cfg.initSeq 0 (setPhase c .seq s) :=
    .readCfg (·.initSeq) fun ps => (sendPairs_operation c ps 0).after (setPhase_silent c .seq)
  have hmark : Silent (markInitialised c) := by cases c <;> exact .of_eq rfl
  exact (((startBus_operation c).andThen (addressBus_operation c)).andThen hpairs).andThen
    ((clearDisplay_operation c).after hmark)

/-! ### The scanner and the player -/

theorem deliverDigit_operation (d : Nibble) : Operation (deliverDigit d) :=
  have h : Silent fun s => setKs .idle ((setKs .done s).returnDigit d) := .of_eq rfl
  .update h

theorem noDigit_operation : Operation noDigit :=
  have hflag : Silent State.setNomatch := .of_eq rfl
  have hevent : ∀ q, Operation fun s => s.raise (.noMatch q) := fun q =>
    (Operation.event (.noMatch q) rfl).after hflag
  (Operation.read (fun s => s.ksPat) (fun _ _ => rfl) hevent).andThen
    (.readCfg (fun p => (keymapRom p 0).digit) deliverDigit_operation)

theorem lookupPattern_operation : Operation lookupPattern := by
  refine Operation.read (fun s => (findSlot s.ksPat s.cfg.keymap 0, s.cfg)) (fun _ _ => rfl) (F := fun p s =>
    match p.1 with
    | some j =>
      let t := { s with ksSlot := BitVec.ofNat 4 j }
      if (keymapRom p.2 j).isDigit then deliverDigit (keymapRom p.2 j).digit t else noDigit t
    | none => noDigit { s with ksSlot := 0 }) fun p => ?_
  have hslot : ∀ v : BitVec 4, Silent fun s => { s with ksSlot := v } := fun _ => .of_eq rfl
  obtain ⟨_ | j, p⟩ := p
  · exact noDigit_operation.after (hslot 0)
  · exact .ite _ ((deliverDigit_operation _).after (hslot _)) (noDigit_operation.after (hslot _))

theorem writeRows_operation (v : Nibble) : Operation (writeRows v) :=
  have hrows : Silent fun s => { s with kpRow := v } := .of_eq rfl
  (Operation.event (.row v) rfl).after hrows

theorem capturePattern_operation (col : Nibble) : Operation (capturePattern col) :=
  have hpat : Silent fun s => setKs .lookup { s with ksPat := keyPattern s.kpRow col } := .of_eq rfl
  (Operation.readCfg allInactive fun v => (writeRows_operation v).after hpat).andThen lookupPattern_operation

theorem setKs_silent (ph : KsPhase) : Silent (setKs ph) := .of_eq rfl

theorem strobeRow_operation : Operation strobeRow :=
  (Operation.read (fun s => strobe s.cfg s.ksRow) (fun _ _ => rfl) fun v =>
    (writeRows_operation v).after (setKs_silent .drive)).andThen
    (.readCfg (·.tRowSettle) fun n => (sleep_operation n).after (setKs_silent .settle))

theorem sampleColumns_operation : Operation sampleColumns :=
  have htail : Silent fun s => setKs .sample { s with cols := s.cols.tail } := .of_eq rfl
  .read columnsNow (fun _ _ => rfl) fun col => (Operation.event (.sample col) rfl).after htail

theorem scanRow_operation {more : State → Run} (hmore : Operation more) : Operation (scanRow more) := by
  have hnext : Silent nextRow := .of_eq rfl
  have hturn : ∀ col, Operation fun u => if col ≠ u.cfg.colIdle then capturePattern col u else more (nextRow u) :=
    fun col => .readCfg (·.colIdle) fun _ => .ite _ (capturePattern_operation col) (hmore.after hnext)
  exact strobeRow_operation.andThen
    (.read columnsNow (fun _ _ => rfl) fun col => sampleColumns_operation.andThen (hturn col))

theorem scanRows_operation (n : Nat) : Operation (scanRows n) := by
  induction n with
  | zero => exact .stop
  | succ n ih => exact scanRow_operation ih

theorem resumeScan_operation : Operation resumeScan := .read scanTurns (fun _ _ => rfl) scanRows_operation

theorem readDigit_operation : Operation readDigit :=
  have hfirst : Silent fun s => setKs .drive { s with ksRow := 0 } := .of_eq rfl
  .read scanTurns (fun _ _ => rfl) fun n => (scanRows_operation n).after hfirst

theorem slotPattern_operation (k : Nat) : Operation (slotPattern k) :=
  have hpat : Silent fun s => setKs .lookup { s with ksPat := (keymapRom s.cfg k).pattern } := .of_eq rfl
  lookupPattern_operation.after hpat

theorem writeLed_operation (b : Bool) : Operation (writeLed b) :=
  have hline : Silent fun s => { s with led := b } := .of_eq rfl
  (Operation.event (.led b) rfl).after hline

theorem setPlayer_silent (st : LmpState) : Silent (setPlayer st) := .of_eq rfl

theorem playMark_operation (w : Byte) (i : Nat) : Operation (playMark w i) :=
  have hindex : Silent fun s => setPlayer .markOn { s with lmpIdx := BitVec.ofNat 3 i } := .of_eq rfl
  have hon : Operation (markOn w i) := ((writeLed_operation true).after hindex).andThen
    (.readCfg (holdTime · (markAt w i)) sleep_operation)
  have hoff : Operation gapOff := ((writeLed_operation false).after (setPlayer_silent .gapOff)).andThen
    (.readCfg (·.tDot) sleep_operation)
  hon.andThen hoff

theorem playMarks_operation (w : Byte) (n i : Nat) : Operation (playMarks w n i) := by
  induction n generalizing i with
  | zero => exact .done
  | succ n ih => exact (playMark_operation w i).andThen (ih (i + 1))

theorem playWord_operation (w : Byte) : Operation (playWord w) :=
  have hgap : Operation charGap :=
    .readCfg (·.tCharGap) fun n => (sleep_operation n).after (setPlayer_silent .gapOff)
  ((playMarks_operation w _ 0).andThen hgap).andThen (.update (setPlayer_silent .idle))

/-! ### The session controller -/

theorem setSc_silent (ph : ScPhase) : Silent (setSc ph) := .of_eq rfl

theorem startSession_operation : Operation startSession :=
  (((initDisplay_operation .ch1).after (setSc_silent .init1)).andThen
    ((initDisplay_operation .ch2).after (setSc_silent .init2))).andThen (.update (setSc_silent .check))

theorem windowSettle_operation : Operation windowSettle :=
  have hempty : Silent emptyWindow := .of_eq rfl
  .readCfg (·.tWindowSettle) fun n => (sleep_operation n).after hempty

theorem windowBoundary_operation : Operation windowBoundary :=
  .read (fun s => s.cnt) (fun _ _ => rfl) fun k => .ite (k = 4)
    ((((clearDisplay_operation .ch1).after (setSc_silent .wclr1)).andThen
      ((clearDisplay_operation .ch2).after (setSc_silent .wclr2))).andThen
      (windowSettle_operation.after (setSc_silent .wsettle)))
    .done

theorem readPhase_operation : Operation readPhase :=
  have hlatch : Silent latchDigit := .of_eq rfl
  (readDigit_operation.after (setSc_silent .read)).andThen (.update hlatch)

theorem positionPhase_operation : Operation positionPhase :=
  .read (fun s => s.cnt) (fun _ _ => rfl) fun k => .ite (k = 0)
    ((clearDisplay_operation .ch1).after (setSc_silent .ch1pos))
    ((moveCursor_operation .ch1 (k.setWidth 2)).after (setSc_silent .ch1pos))

/-- A character on a channel, written in a phase of the controller. -/
theorem charPhase_operation (c : Chan) (ph : ScPhase) (d : State → Nibble) (hd : ∀ s k, d (s.rstAfter k) = d s) :
    Operation fun s => writeChar c (digitChar (d s)) (setSc ph s) :=
  .read d hd fun v => (writeChar_operation c (digitChar v)).after (setSc_silent ph)

theorem writeMarks_operation (n i : Nat) : Operation (writeMarks n i) := by
  induction n generalizing i with
  | zero => exact .done
  | succ n ih =>
    have hindex : Silent fun s => { s with scMi := BitVec.ofNat 3 i } := .of_eq rfl
    have hmark : Operation (writeMark i) := .read (fun s => markChar (markAt s.mw i)) (fun _ _ => rfl) fun b =>
      (writeChar_operation .ch2 b).after hindex
    exact hmark.andThen (ih (i + 1))

theorem marksPhase_operation : Operation marksPhase :=
  .read (fun s => markCount s.mw) (fun _ _ => rfl) fun n => (writeMarks_operation n 0).after (setSc_silent .ch2mrk)

theorem playPhase_operation : Operation playPhase :=
  .read (fun s => s.mw) (fun _ _ => rfl) fun w => (playWord_operation w).after (setSc_silent .play)

theorem iterateSession_operation : Operation iterateSession :=
  have hcipher : Silent cipherPhase := .of_eq rfl
  have hadvance : Silent fun t => setSc .check (advanceCounts (setSc .adv t)) := .of_eq rfl
  ((((((((windowBoundary_operation.andThen readPhase_operation).andThen (.update hcipher)).andThen
    positionPhase_operation).andThen (charPhase_operation .ch1 .ch1wr (·.dig) fun _ _ => rfl)).andThen
    ((clearDisplay_operation .ch2).after (setSc_silent .ch2clr))).andThen
    (charPhase_operation .ch2 .ch2dig (·.enc) fun _ _ => rfl)).andThen
    marksPhase_operation).andThen playPhase_operation).andThen (.update hadvance)

theorem haltDone_operation : Operation haltDone :=
  have hflag : Silent State.setDone := .of_eq rfl
  have hhalt : Silent State.halt := .of_eq rfl
  ((Operation.event .done rfl).after hflag).andThen (.update hhalt)

theorem terminateSession_operation : Operation terminateSession :=
  (((displayOff_operation .ch1).after (setSc_silent .off1)).andThen
    ((displayOff_operation .ch2).after (setSc_silent .off2))).andThen haltDone_operation

theorem iterations_operation (n : Nat) : Operation (iterations n) := by
  induction n with
  | zero => exact .done
  | succ n ih =>
    exact .read (fun s => s.rem) (fun _ _ => rfl) fun k => .ite (k = 0) .done (iterateSession_operation.andThen ih)

theorem runSession_operation : Operation runSession :=
  (startSession_operation.andThen (.read (fun t => t.rem) (fun _ _ => rfl) iterations_operation)).andThen
    terminateSession_operation

/-! ### Instructions -/

/-- Where `e` answers a next state, an operation has ended in it. -/
def Operational (e : State → Host.Outcome State Fault Refusal) : Prop :=
  ∃ f, Operation f ∧ ∀ s t, e s = .next t → (f s).result = .next t

section
variable {f : State → Run}

theorem Operation.result (hf : Operation f) : Operational fun s => (f s).result := ⟨f, hf, fun _ _ => id⟩

theorem Operation.ifInitialised (hf : Operation f) (c : Chan) : Operational fun s => ifInitialised c s (f s) :=
  ⟨f, hf, fun _ _ => ifInitialised_next⟩

theorem Operation.ifUninitialised (hf : Operation f) (c : Chan) :
    Operational fun s => ifUninitialised c s (f s).result := ⟨f, hf, fun _ _ => ifUninitialised_next⟩

theorem Operation.ifSessionNew (hf : Operation f) : Operational fun s => ifSessionNew s (f s) :=
  ⟨f, hf, fun _ _ h => ifUninitialised_next (ifUninitialised_next h)⟩

theorem Operation.ifSessionOpen (hf : Operation f) : Operational fun s => ifSessionOpen s (f s) :=
  ⟨f, hf, fun _ _ => ifSessionOpen_next⟩

end

theorem Silent.next {g : State → State} (hg : Silent g) : Operational fun s => .next (g s) :=
  (Operation.update hg).result

theorem encodeOp_silent (d : Nibble) : Silent (encodeOp d) := .of_eq rfl

/-- Every instruction performs an operation, or is refused. -/
theorem exec_operational (i : Instr) : Operational (exec i) := by
  cases i with
  | ksReaddigit => exact readDigit_operation.result
  | ceEncrypt d q =>
    have h : Silent (encryptOp d q) := .of_eq rfl
    exact h.next
  | meEncode d => exact (encodeOp_silent _).next
  | dcdInitializeCh1 => exact (initDisplay_operation .ch1).ifUninitialised .ch1
  | dcdInitializeCh2 => exact (initDisplay_operation .ch2).ifUninitialised .ch2
  | dcdSendbyteCh1 b => exact (sendByte_operation .ch1 b id).ifInitialised .ch1
  | dcdSendbyteCh2 b => exact (sendByte_operation .ch2 b id).ifInitialised .ch2
  | dcdSendnibbleCh1 n rs => exact (sendNibble_operation .ch1 n rs id).ifInitialised .ch1
  | dcdSendnibbleCh2 n rs => exact (sendNibble_operation .ch2 n rs id).ifInitialised .ch2
  | dcdWritecommandCh1 b => exact (writeCommand_operation .ch1 b).ifInitialised .ch1
  | dcdWritecommandCh2 b => exact (writeCommand_operation .ch2 b).ifInitialised .ch2
  | dcdWritecharCh1 b => exact (writeChar_operation .ch1 b).ifInitialised .ch1
  | dcdWritecharCh2 b => exact (writeChar_operation .ch2 b).ifInitialised .ch2
  | dcdClearCh1 => exact (clearDisplay_operation .ch1).ifInitialised .ch1
  | dcdClearCh2 => exact (clearDisplay_operation .ch2).ifInitialised .ch2
  | dcdMovecursorCh1 o => exact (moveCursor_operation .ch1 o).ifInitialised .ch1
  | dcdMovecursorCh2 o => exact (moveCursor_operation .ch2 o).ifInitialised .ch2
  | dcdDisplayoffCh1 => exact (displayOff_operation .ch1).ifInitialised .ch1
  | dcdDisplayoffCh2 => exact (displayOff_operation .ch2).ifInitialised .ch2
  | lmpPlay w => exact ⟨_, playWord_operation w, fun _ _ => execLmpPlay_next⟩
  | scStart => exact startSession_operation.ifSessionNew
  | scIterate => exact iterateSession_operation.ifSessionOpen
  | scTerminate => exact terminateSession_operation.ifSessionOpen
  | scRun => exact runSession_operation.ifSessionNew
  | dcClear c =>
    exact ((commandTransfer_operation c (·.cmdClear)).andThen (setCursor_finish_operation c 0)).ifInitialised c
  | dcHome c =>
    exact ((commandTransfer_operation c (·.cmdHome)).andThen (setCursor_finish_operation c 0)).ifInitialised c
  | dcSetcursor c o => exact (moveCursor_operation c o).ifInitialised c
  | dcDisplayoff c => exact (displayOff_operation c).ifInitialised c
  | dcWritechar c b => exact (writeChar_operation c b).ifInitialised c
  | bfCommand c n en => exact (sendFrame_operation c n en false id).ifInitialised c
  | bfCharacter c n en => exact (sendFrame_operation c n en true id).ifInitialised c
  | mwDigit0 | mwDigit1 | mwDigit2 | mwDigit3 | mwDigit4 | mwDigit5 | mwDigit6 | mwDigit7 | mwDigit8 | mwDigit9
  | mwEmpty => exact (encodeOp_silent _).next
  | kpSlot0Key0 | kpSlot1Key1 | kpSlot2Key2 | kpSlot3Key3 | kpSlot4Key4 | kpSlot5Key5 | kpSlot6Key6 | kpSlot7Key7
  | kpSlot8Key8 | kpSlot9Key9 | kpSlot10KeyA | kpSlot11KeyB | kpSlot12KeyC | kpSlot13KeyD | kpSlot14KeyStar
  | kpSlot15KeyHash => exact (slotPattern_operation _).result

end Sys2Proof.Machine
end

section
/-! `rst` in the middle of an operation (70_reset_and_hazards.md R265, R267, 60_exceptions.md R244). `Interruptible`
compares the run in which `rst` is to come with the one in which it is not; it composes and holds of the parts of an
operation, so it holds of every operation. -/

namespace Sys2Proof.Machine

open Sys2Proof.Config

/-! ### Two runs of one operation -/

theorem Run.state_done (s : State) : (Run.done s).state = s := rfl

theorem Run.eq_state_of_result {r : Run} {t : State} (h : r.result = .next t) : t = r.state := by
  rw [Run.result_eq] at h
  cases h
  rfl

/-- What is left of an operation that `rst` has cut off with the trace `es`: every register of the build `p` has its
reset value. -/
structure CutOff (p : Params) (es : List Event) (t : State) : Prop where
  block : t.toBlock = .reset p
  cfg : t.cfg = p
  rst : t.rst = true
  events : t.events = es

/-- From `s` to `t` events have been appended, and no `rst` is to come. -/
structure Undisturbed (s t : State) : Prop where
  grows : s.events <+: t.events
  cfg : t.cfg = s.cfg
  rstIn : t.rstIn = none

theorem Undisturbed.trans {s t u : State} (h : Undisturbed s t) (k : Undisturbed t u) : Undisturbed s u :=
  ⟨h.grows.trans k.grows, k.cfg.trans h.cfg, k.rstIn⟩

/-- A statement that, where `rst` is to come after more than `k` events, does the same as without it if it is over by
then, and is else cut off with the first `k + 1` of them. -/
structure Interruptible (f : State → Run) : Prop where
  undisturbed : ∀ s, s.rstIn = none → Undisturbed s (f s).state
  spared : ∀ s k, s.rstIn = none → (f s).state.events.length ≤ s.events.length + k →
    f (s.rstAfter (some k)) =
      (f s).map (·.rstAfter (some (s.events.length + k - (f s).state.events.length)))
  cut : ∀ s k, s.rstIn = none → s.events.length + k < (f s).state.events.length →
    ∃ t, f (s.rstAfter (some k)) = .stop t ∧ CutOff s.cfg ((f s).state.events.take (s.events.length + k + 1)) t

/-- A statement without an event is over before `rst` comes. -/
theorem Interruptible.of_noEvent {f : State → Run} (hevents : ∀ s, (f s).state.events = s.events)
    (hcfg : ∀ s, (f s).state.cfg = s.cfg) (hrst : ∀ s, s.rstIn = none → (f s).state.rstIn = none)
    (hsame : ∀ s k, f (s.rstAfter k) = (f s).map (·.rstAfter k)) : Interruptible f where
  undisturbed s hs := ⟨by rw [hevents], hcfg s, hrst s hs⟩
  spared s k _ _ := by rw [hsame, hevents, Nat.add_sub_cancel_left]
  cut s k _ h := absurd h (by rw [hevents]; omega)

theorem Silent.rstIn {g : State → State} (hg : Silent g) {s : State} (hs : s.rstIn = none) : (g s).rstIn = none := by
  have hsame : s.rstAfter none = s := by rw [← hs]; rfl
  rw [← hsame, hg.rstAfter]
  rfl

theorem Silent.interruptible {g : State → State} (hg : Silent g) : Interruptible fun s => .done (g s) :=
  .of_noEvent hg.events hg.cfg (fun _ => hg.rstIn) fun s k => congrArg Run.done (hg.rstAfter s k)

theorem stop_interruptible : Interruptible .stop :=
  .of_noEvent (fun _ => rfl) (fun _ => rfl) (fun _ => id) fun _ _ => rfl

/-- `rst` may come right after an event. -/
theorem event_interruptible (e : Event) : Interruptible fun s => resetPoint (s.emit e) := by
  have hdone : ∀ s : State, s.rstIn = none → resetPoint (s.emit e) = .done (s.emit e) := fun s hs =>
    resetPoint_none (s := s.emit e) hs
  refine ⟨fun s hs => ?_, fun s k hs h => ?_, fun s k hs h => ?_⟩
  · rw [hdone s hs]
    exact ⟨⟨[e], rfl⟩, rfl, hs⟩
  · rw [hdone s hs] at h ⊢
    simp only [Run.state, emit_events, List.length_append, List.length_singleton] at h ⊢
    obtain ⟨j, rfl⟩ : ∃ j, k = j + 1 := ⟨k - 1, by omega⟩
    rw [show s.events.length + (j + 1) - (s.events.length + 1) = j by omega]
    rfl
  · rw [hdone s hs] at h ⊢
    simp only [Run.state, emit_events, List.length_append, List.length_singleton] at h ⊢
    obtain rfl : k = 0 := by omega
    exact ⟨_, rfl, rfl, rfl, rfl, (List.take_of_length_le (by simp)).symm⟩

/-- What the second of two statements adds lies behind the trace of the first. -/
theorem CutOff.of_longer {p : Params} {es fs : List Event} {n : Nat} {t : State} (h : CutOff p (es.take n) t)
    (hes : es <+: fs) (hn : n ≤ es.length) : CutOff p (fs.take n) t := by
  obtain ⟨rest, rfl⟩ := hes
  rwa [List.take_append_of_le_length hn]

/-- One statement after another: `rst` cuts off the first, or finds it over and the second begun. -/
theorem Interruptible.andThen {f g : State → Run} (hf : Interruptible f) (hg : Interruptible g) :
    Interruptible fun s => (f s).andThen g := by
  refine ⟨fun s hs => ?_, fun s k hs => ?_, fun s k hs => ?_⟩
  · have hfirst := hf.undisturbed s hs
    cases hfs : f s with
    | done u =>
      rw [hfs, Run.state_done] at hfirst
      exact hfirst.trans (hg.undisturbed u hfirst.rstIn)
    | stop u => rwa [hfs] at hfirst
  · have hfirst := hf.undisturbed s hs
    have hspared := hf.spared s k hs
    cases hfs : f s with
    | done u =>
      rw [hfs, Run.state_done] at hfirst hspared
      rw [Run.done_andThen]
      intro h
      have hle := (hg.undisturbed u hfirst.rstIn).grows.length_le.trans h
      have hsecond := hg.spared u (s.events.length + k - u.events.length) hfirst.rstIn
      rw [Nat.add_sub_cancel' hle] at hsecond
      rw [hspared hle]
      exact hsecond h
    | stop u =>
      rw [Run.stop_andThen]
      intro h
      rw [hfs] at hspared
      rw [hspared h]
      rfl
  · have hfirst := hf.undisturbed s hs
    have hspared := hf.spared s k hs
    have hcut := hf.cut s k hs
    cases hfs : f s with
    | done u =>
      rw [hfs, Run.state_done] at hfirst hspared hcut
      rw [Run.done_andThen]
      intro h
      rcases Nat.lt_or_ge (s.events.length + k) u.events.length with hlt | hle
      · obtain ⟨t, ht, hoff⟩ := hcut hlt
        exact ⟨t, by rw [ht, Run.stop_andThen], hoff.of_longer (hg.undisturbed u hfirst.rstIn).grows hlt⟩
      · have hsecond := hg.cut u (s.events.length + k - u.events.length) hfirst.rstIn
        rw [Nat.add_sub_cancel' hle, hfirst.cfg] at hsecond
        rw [hspared hle]
        exact hsecond h
    | stop u =>
      rw [Run.stop_andThen]
      intro h
      rw [hfs] at hcut
      obtain ⟨t, ht, hoff⟩ := hcut h
      exact ⟨t, by rw [ht, Run.stop_andThen], hoff⟩

theorem Interruptible.read {α : Type} (a : State → α) (ha : ∀ s k, a (s.rstAfter k) = a s)
    {F : α → State → Run} (hF : ∀ v, Interruptible (F v)) : Interruptible fun s => F (a s) s where
  undisturbed s := (hF (a s)).undisturbed s
  spared s k := by rw [ha]; exact (hF (a s)).spared s k
  cut s k := by rw [ha]; exact (hF (a s)).cut s k

/-! ### The ready-wait -/

theorem readyGivenUp_interruptible (c : Chan) (n : Nat) : Interruptible fun s => s.readyGivenUp c n := by
  have hflag : Silent fun s => ({ s with time := s.time + n } : State).setBusTimeout := .of_eq rfl
  have hhalt : Silent State.halt := .of_eq rfl
  exact (hflag.interruptible.andThen (event_interruptible (.busTimeout c))).andThen
    (hhalt.interruptible.andThen stop_interruptible)

theorem readySeen_interruptible (c : Chan) (w : Nat) (r : Ready) (v : View → View) :
    Interruptible fun s => resetPoint (s.readySeen c w r v) := by
  have hseen : Silent fun s => { (s.modLine c fun l => { l with ready := r, view := v l.view }).modDrv c fun d =>
      { d with busReq := .none } with time := s.time + w } := by cases c <;> exact .of_eq rfl
  exact hseen.interruptible.andThen (event_interruptible (.busReady c))

/-- How the next ready-wait will end is not changed by the coming of `rst`. -/
theorem readyWait_interruptible (c : Chan) (v : View → View) : Interruptible (readyWait c v) := by
  refine Interruptible.read (fun s => ((s.line c).ready.pop, s.cfg.busTimeout)) (fun s k => by cases c <;> rfl)
    (F := fun p s => match p.1 with
      | (some w, r) => if inTime p.2 w then resetPoint (s.readySeen c w r v) else s.readyGivenUp c (p.2.getD 0)
      | (none, _) => match p.2 with
        | none => .stop s
        | some t => s.readyGivenUp c t) fun p => ?_
  obtain ⟨⟨_ | w, r⟩, bound⟩ := p
  · cases bound with
    | none => exact stop_interruptible
    | some n => exact readyGivenUp_interruptible c n
  · by_cases hw : inTime bound w = true
    · simpa only [if_pos hw] using readySeen_interruptible c w r v
    · simpa only [if_neg hw] using readyGivenUp_interruptible c (bound.getD 0)

/-! ### Every operation, and the reset itself -/

theorem Operation.interruptible {f : State → Run} (h : Operation f) : Interruptible f := by
  induction h with
  | update hg => exact hg.interruptible
  | stop => exact stop_interruptible
  | event e _ => exact event_interruptible e
  | request _ hput _ v =>
    exact (hput.interruptible.andThen (event_interruptible _)).andThen (readyWait_interruptible _ v)
  | andThen _ _ ihf ihg => exact ihf.andThen ihg
  | read a ha _ ih => exact .read a ha ih

/-- Settles O3: the step that finds `rst` asserted is the reset of the block. -/
theorem rstOverridesEverything : Obligations.RstOverridesEverything := fun _ hwf hrst => step_of_rst hwf hrst

/-- Settles O4: an instruction performs an operation, which is interruptible; the reset that follows is O3's. -/
theorem resetInsideOperation : Obligations.ResetInsideOperation := by
  intro s t u i k hwf _ hu ht
  obtain ⟨f, hf, hexec⟩ := exec_operational i
  have hint := hf.interruptible
  let s' := s.rstAfter none
  obtain rfl : u = (f s').state := Run.eq_state_of_result (hexec _ _ hu)
  obtain rfl : t = (f (s'.rstAfter (some k))).state := Run.eq_state_of_result (hexec _ _ ht)
  split
  · next hle =>
    rw [hint.spared s' k rfl hle]
    cases f s' <;> rfl
  · next hgt =>
    obtain ⟨v, hv, hblock, hcfg, hreset, hevents⟩ := hint.cut s' k rfl (Nat.lt_of_not_le hgt)
    rw [hv]
    have hstep := rstOverridesEverything v (hcfg ▸ hwf) hreset
    rw [hcfg] at hstep
    exact ⟨hblock, hreset, hevents, hstep⟩

end Sys2Proof.Machine
end

section
/-! Every bus request is followed at once by the end of its ready-wait (70_reset_and_hazards.md R276, 20_memory.md R66).
Between two statements of an operation the trace is `Settled`; a request is open only inside the request and its wait,
where the block stays, gives up, or is reset. -/

namespace Sys2Proof.Machine

/-! ### Traces -/

/-- Every request of the trace has been followed by the end of its wait, the last event included. -/
structure Settled (es : List Event) : Prop where
  shape : answeredTrace es = true
  noneOpen : requestOpen es = false

theorem answeredBy_nil (e : Event) : answeredBy e [] = true := by
  unfold answeredBy
  cases requestChan e <;> rfl

/-- What must follow an event is settled by the next one. -/
theorem answeredBy_cons (e f : Event) (es : List Event) : answeredBy e (f :: es) = answeredBy e [f] := by
  unfold answeredBy
  cases requestChan e <;> rfl

/-- An event after a trace is what must follow the trace's last one. -/
theorem answeredTrace_snoc (es : List Event) (f : Event) :
    answeredTrace (es ++ [f]) = (answeredTrace es && es.getLast?.all (answeredBy · [f])) := by
  induction es with
  | nil => simp [answeredTrace, answeredBy_nil]
  | cons e es ih =>
    cases es with
    | nil => simp [answeredTrace, answeredBy_nil]
    | cons e' es =>
      have hnext : answeredBy e (e' :: es ++ [f]) = answeredBy e (e' :: es) :=
        (answeredBy_cons e e' _).trans (answeredBy_cons e e' es).symm
      rw [List.cons_append, answeredTrace, ih, hnext, List.getLast?_cons_cons]
      exact (Bool.and_assoc _ _ _).symm

theorem requestOpen_snoc (es : List Event) (e : Event) : requestOpen (es ++ [e]) = (requestChan e).isSome := by
  simp [requestOpen]

/-- Anything may follow a settled trace. -/
theorem Settled.answeredTrace_snoc {es : List Event} (h : Settled es) (e : Event) :
    answeredTrace (es ++ [e]) = true := by
  rw [Machine.answeredTrace_snoc, h.shape, Bool.true_and]
  have hopen := h.noneOpen
  unfold requestOpen at hopen
  cases hlast : es.getLast? with
  | none => rfl
  | some f =>
    rw [hlast, Option.isSome_eq_false_iff, Option.isNone_iff_eq_none] at hopen
    simp [answeredBy, hopen]

theorem Settled.snoc {es : List Event} (h : Settled es) {e : Event} (he : requestChan e = none) :
    Settled (es ++ [e]) :=
  ⟨h.answeredTrace_snoc e, by rw [requestOpen_snoc, he]; rfl⟩

/-- A request and the end of its wait. -/
theorem Settled.request {es : List Event} (h : Settled es) {c : Chan} {e f : Event} (he : requestChan e = some c)
    (hf : endsWait c f = true) (hend : requestChan f = none) : Settled (es ++ [e] ++ [f]) := by
  refine ⟨?_, by rw [requestOpen_snoc, hend]; rfl⟩
  rw [Machine.answeredTrace_snoc, h.answeredTrace_snoc, List.getLast?_concat]
  simp [answeredBy, he, hf]

/-! ### Operations -/

theorem Settled.answered {s : State} (h : Settled s.events) : s.Answered := ⟨h.shape, fun _ _ => h.noneOpen⟩

/-- Where the next operation may begin, no request is open. -/
theorem State.Answered.settled {s : State} (h : s.Answered) (hrst : s.rst = false) (hstalled : s.stalled = false) :
    Settled s.events := ⟨h.shape, h.noneOpen hrst hstalled⟩

/-- `rst` ends the trace where it stands. -/
theorem answered_assertReset {s : State} (h : answeredTrace s.events = true) : s.assertReset.Answered :=
  ⟨h, fun hrst => nomatch hrst⟩

/-- The statement returns with every request answered, or stops with at most the one open that it waits on. -/
def Answers (r : Run) : Prop := r.Ends (fun t => Settled t.events) State.Answered

theorem answers_done {s : State} (h : Settled s.events) : Answers (.done s) := h

theorem Answers.state {r : Run} (h : Answers r) : r.state.Answered := by
  cases r with
  | done t => exact Settled.answered h
  | stop t => exact h

/-- An event after which the trace is in order. -/
theorem resetPoint_answers {s : State} (h : Settled s.events) : Answers (resetPoint s) :=
  resetPoint_ends s (fun _ _ => h) fun _ => answered_assertReset h.shape

/-- The wait for the answer to the request `e`, which stands on the bus and ends the trace. -/
theorem readyWait_answers {c : Chan} {e : Event} {es : List Event} {s : State} (hes : Settled es)
    (he : requestChan e = some c) (hs : s.events = es ++ [e]) (hbusy : (s.drv c).busReq ≠ .none) (v : View → View) :
    Answers (readyWait c v s) := by
  have hended : ∀ f, endsWait c f = true → requestChan f = none → Settled (s.events ++ [f]) := fun f hf hend =>
    hs ▸ hes.request he hf hend
  rcases readyWait_cases c v s with ⟨w, r, -, -, h⟩ | ⟨-, -, h⟩ | ⟨n, -, h⟩ <;> rw [h]
  · refine resetPoint_answers ?_
    have hevents : (s.readySeen c w r v).events = s.events ++ [.busReady c] := by simp [State.readySeen]
    rw [hevents]
    exact hended (.busReady c) (by simp [endsWait]) rfl
  · refine ⟨hs ▸ hes.answeredTrace_snoc e, fun _ hstalled => ?_⟩
    rw [stalled_of_busy hbusy] at hstalled
    cases hstalled
  · have hgaveUp : Settled (({ s with time := s.time + n } : State).setBusTimeout.emit (.busTimeout c)).events :=
      hended (.busTimeout c) (by simp [endsWait]) rfl
    have hhalt : ∀ t : State, Settled t.events → Answers (.stop t.halt) := fun t ht =>
      Settled.answered (s := t.halt) ht
    exact Run.Ends.andThen (resetPoint_answers hgaveUp) hhalt

/-- A request is put on the bus, and its answer is waited for. -/
theorem request_answers {c : Chan} {e : Event} {s : State} (h : Settled s.events) (he : requestChan e = some c)
    (hbusy : (s.drv c).busReq ≠ .none) (v : View → View) :
    Answers ((resetPoint (s.emit e)).andThen (readyWait c v)) := by
  refine Run.Ends.andThen (P := fun t => t.events = s.events ++ [e] ∧ t.drv c = s.drv c)
    (resetPoint_ends _ (fun _ _ => ⟨rfl, by cases c <;> rfl⟩) fun _ =>
      answered_assertReset (h.answeredTrace_snoc e)) ?_
  rintro t ⟨hevents, hdrv⟩
  exact readyWait_answers h he hevents (by rw [hdrv]; exact hbusy) v

/-- Every operation begun with a settled trace answers its requests. -/
theorem Operation.answers {f : State → Run} (hf : Operation f) {s : State} (h : Settled s.events) :
    Answers (f s) := by
  induction hf generalizing s with
  | update hg => exact answers_done ((hg.events s).symm ▸ h)
  | stop => exact h.answered
  | event e he => exact resetPoint_answers (h.snoc he)
  | request he hput hbusy v => exact request_answers ((hput.events s).symm ▸ h) he (hbusy s) v
  | andThen _ _ ihf ihg => exact Run.Ends.andThen (ihf h) fun t => ihg
  | read a _ _ ih => exact ih (a s) h

/-! ### Instructions, the walk, the step -/

/-- The last operation returned to its caller, so no request is open. -/
theorem State.Answered.settled_of_free {s : State} (h : s.Answered) (hfree : s.free = true) : Settled s.events := by
  obtain ⟨hrst, -⟩ := (free_iff s).1 hfree
  exact h.settled hrst (not_stalled_of_free hfree)

theorem Operational.answered {e : State → Host.Outcome State Fault Refusal} (he : Operational e) {s t : State}
    (hs : Settled s.events) (h : e s = .next t) : t.Answered := by
  obtain ⟨f, hf, hresult⟩ := he
  obtain rfl : t = (f s).state := Run.eq_state_of_result (hresult s t h)
  exact (hf.answers hs).state

theorem exec_answered {i : Instr} {s t : State} (hs : Settled s.events) (h : exec i s = .next t) : t.Answered :=
  (exec_operational i).answered hs h

/-- What follows an operation of the walk begins only where no request is open. -/
theorem performAfter_answered {r : Host.Outcome State Fault Refusal} {f : State → Run} {t : State}
    (h : performAfter r f = .next t) (hr : ∀ u, r = .next u → u.Answered)
    (hf : ∀ u, Settled u.events → Answers (f u)) : t.Answered := by
  cases r with
  | next u =>
    have hu := hr u rfl
    unfold performAfter at h
    dsimp only at h
    split at h
    · next hfree =>
      obtain rfl : t = (f u).state := Run.eq_state_of_result h
      exact (hf u (hu.settled_of_free hfree)).state
    · cases h; exact hu
  | fault e => cases h
  | refused e => cases h

/-- A phase of the walk that performs an instruction and then writes registers. -/
theorem phase_answered {i : Instr} {g : State → State} {s t : State} (hs : Settled s.events)
    (h : whenReturned (exec i s) g = .next t) (hg : ∀ u, (g u).events = u.events) : t.Answered :=
  performAfter_answered h (fun _ => exec_answered hs) fun u hu => answers_done ((hg u).symm ▸ hu)

theorem walkMark_answered {s t : State} (hs : Settled s.events) (h : walkMark s = .next t) : t.Answered := by
  unfold walkMark at h
  split at h
  · refine phase_answered hs h fun u => ?_
    unfold afterMark
    split <;> rfl
  · cases h
    exact Settled.answered (s := setSc .play s) hs

/-- Every phase of the walk performs at most one instruction with requests, and then writes registers. -/
theorem walk_answered {s t : State} (hs : Settled s.events) (hfree : s.free = true) (h : walk s = .next t) :
    t.Answered := by
  have registers : ∀ u : State, u.events = s.events → u.Answered := fun _ hu => Settled.answered (hu.symm ▸ hs)
  unfold walk at h
  generalize s.scPhase = phase at h
  cases phase with
  | reset => cases h; exact registers _ rfl
  | init1 => exact phase_answered hs h fun _ => rfl
  | init2 => exact phase_answered hs h fun _ => rfl
  | check =>
    cases h
    refine registers (checkPhase s) ?_
    unfold checkPhase
    split
    · rfl
    · split <;> rfl
  | wclr1 => exact phase_answered hs h fun _ => rfl
  | wclr2 => exact phase_answered hs h fun _ => rfl
  | wsettle =>
    exact performAfter_answered h (fun _ => windowSettle_operation.result.answered hs) fun _ => id
  | read => exact phase_answered hs h fun _ => rfl
  | cipher =>
    rw [walkEncode_walkCipher hfree] at h
    cases h
    exact registers _ rfl
  | ch1pos => exact phase_answered hs h fun _ => rfl
  | ch1wr => exact phase_answered hs h fun _ => rfl
  | ch2clr => exact phase_answered hs h fun _ => rfl
  | ch2dig => exact phase_answered hs h fun _ => rfl
  | ch2mrk => exact walkMark_answered hs h
  | play => exact phase_answered hs h fun _ => rfl
  | adv => cases h; exact registers _ rfl
  | off1 => exact phase_answered hs h fun _ => rfl
  | off2 => exact performAfter_answered h (fun _ => exec_answered hs) fun _ => haltDone_operation.answers
  | halt => cases h; exact hs.answered

theorem scanOn_answered {s t : State} (hs : Settled s.events) (h : scanOn s = .next t) : t.Answered := by
  have hscan := resumeScan_operation.answers hs
  unfold scanOn at h
  cases hr : resumeScan s with
  | done u =>
    rw [hr] at h hscan
    cases h
    refine Settled.answered ?_
    split <;> exact hscan
  | stop u =>
    rw [hr] at h hscan
    cases h
    exact hscan

theorem performSlot_answered {c : CallSlot} {s t : State} (hs : Settled s.events) (h : performSlot c s = .next t) :
    t.Answered := by
  unfold performSlot at h
  split at h
  · exact exec_answered (s := { s with slot := none }) hs h
  · cases h

/-- Settles O55: a step begins something only where no request is open, and what it begins answers its requests. -/
theorem requestsAreAnswered : Obligations.RequestsAreAnswered := by
  intro s t hs h
  cases hrst : s.rst with
  | true =>
    rw [step_of_rst (step_build h) hrst] at h
    cases h
    exact Settled.answered ⟨rfl, rfl⟩
  | false =>
    rcases step_cases hrst h with ⟨-, rfl⟩ | ⟨-, hstalled, -, hscan⟩ | ⟨⟨-, -, hfree⟩, c, -, hslot⟩ |
      ⟨⟨-, -, hfree⟩, -, hwalk⟩
    · exact hs
    · exact scanOn_answered (hs.settled hrst hstalled) hscan
    · exact performSlot_answered (hs.settled_of_free hfree) hslot
    · exact walk_answered (hs.settled_of_free hfree) hfree hwalk

end Sys2Proof.Machine
end
